-- ==== Sys2Proof/Word.lean ====
section
/-! DEFINITION. The widths of 00_scope.md R6: every value of the block is an unsigned bit vector (R7). -/

namespace Sys2Proof

/-- A data byte, a port register (`DATA_W`). -/
abbrev Byte := BitVec 8

/-- The bus address `A` (`ADDR_W`). -/
abbrev Addr := BitVec 12

/-- The address bits `A[11:2]`, which select no device-select register (20_memory.md R54). -/
abbrev HighBits := BitVec 10

/-- A stored control register (`CTRL_W`). -/
abbrev Ctrl := BitVec 6

/-- `BankOffset`, and an index of the firmware space (`BANK_W`). -/
abbrev Bank := BitVec 11

/-- The cycle word `CW[14:0]` of 30_encoding.md R80. -/
abbrev CycleWord := BitVec 15

/-- The two register pairs of the adapter (00_scope.md R10). -/
inductive Port where
  | a
  | b
  deriving DecidableEq, Repr

end Sys2Proof
end

