-- ==== Sys2Proof/Syntax.lean ====
section
/-! DEFINITION. The twelve bus operations of 30_encoding.md R84, one constructor per row of the opcode
table. Bits of a cycle that an operation ignores are operands too, so that a cycle is determined by its
operation: `hi` is `A[11:2]`, `stb` the don't-care strobe flag, `page` the ignored `A[11:8]`. -/

namespace Sys2Proof

/-- A decoded bus cycle (R84). -/
inductive Instr where
  | rdPa (hi : HighBits) (stb : Bool)
  | rdCra (hi : HighBits) (stb : Bool)
  | rdPb (hi : HighBits) (stb : Bool)
  | rdCrb (hi : HighBits) (stb : Bool)
  | wrPa (hi : HighBits) (stb : Bool) (d : Byte)
  | wrCra (hi : HighBits) (stb : Bool) (d : Byte)
  | wrPb (hi : HighBits) (stb : Bool) (d : Byte)
  | wrCrb (hi : HighBits) (stb : Bool) (d : Byte)
  | rdFw (page : BitVec 4) (off : Byte)
  | rdIostb (a : Addr)
  | wrIosel (a : Addr) (d : Byte)
  | wrIostb (a : Addr) (d : Byte)
  deriving DecidableEq, Repr

end Sys2Proof
end

