-- ==== Sys2Proof/Syntax/Bus.lean ====
section
/-! DEFINITION. What reaches the block at its ports (20_memory.md R50): bus cycles, reset events and
external mutations. -/

namespace Sys2Proof

/-- One bus cycle as the port `cyc` delivers it: 23 bits (10_state.md R31, 30_encoding.md R80). `d` is the
write data; on a read cycle nothing reads it (log entry 10). -/
structure BusCycle where
  a : Addr
  io : Bool
  stb : Bool
  rd : Bool
  d : Byte
  deriving DecidableEq, Repr

/-- Which store of `BankOffset` is the last one when a `RESET_ASSERT` falls inside a `WR_PB`
(70_reset_and_hazards.md R204, its values 1, 2 and 3). -/
inductive RaceOutcome where
  /-- The reset's store of 0 is last. -/
  | resetLast
  /-- The decoder computed from the registers before the reset, and stored last. -/
  | decoderStale
  /-- The decoder computed from the registers after the reset, and stored last. -/
  | decoderFresh
  deriving DecidableEq, Repr

/-- One event of a run (20_memory.md R63). -/
inductive Event where
  /-- A host bus cycle. -/
  | cycle (c : BusCycle)
  /-- `RESET_ASSERT` (true) or `RESET_DEASSERT` (false). -/
  | reset (asserted : Bool)
  /-- `EXT_WR_A(m, v)` or `EXT_WR_B(m, v)`. -/
  | ext (port : Port) (m v : Byte)
  /-- A `WR_PB` of `d` with a `RESET_ASSERT` between its register write and its `BankOffset` store (R204).
  A reset before or after a cycle is an event of its own (log entry 7). -/
  | wrPbRace (hi : HighBits) (stb : Bool) (d : Byte) (outcome : RaceOutcome)
  deriving DecidableEq, Repr

end Sys2Proof
end

