-- ==== Sys2Proof/Decode.lean ====
section
/-! DEFINITION. The decode of 30_encoding.md R83, the opcode table of R84, and the encoder. -/

namespace Sys2Proof

/-- The cycle word of a cycle: `{RD, STB, IO, A}` (R80). -/
def BusCycle.word (c : BusCycle) : CycleWord :=
  BitVec.ofBool c.rd ++ BitVec.ofBool c.stb ++ BitVec.ofBool c.io ++ c.a

/-- The cycle with a given cycle word and data byte (R80). -/
def BusCycle.ofWord (cw : CycleWord) (d : Byte) : BusCycle where
  a := cw.extractLsb' 0 12
  io := cw.getLsbD 12
  stb := cw.getLsbD 13
  rd := cw.getLsbD 14
  d := d

/-- The device-select read named by `REG = A[1:0]` (R81, 20_memory.md R53). -/
def decodeDeviceRead (c : BusCycle) : Instr :=
  match c.a.getLsbD 1, c.a.getLsbD 0 with
  | false, false => .rdPa (c.a.extractLsb' 2 10) c.stb
  | false, true => .rdCra (c.a.extractLsb' 2 10) c.stb
  | true, false => .rdPb (c.a.extractLsb' 2 10) c.stb
  | true, true => .rdCrb (c.a.extractLsb' 2 10) c.stb

/-- The device-select write named by `REG = A[1:0]` (R81, 20_memory.md R53). -/
def decodeDeviceWrite (c : BusCycle) : Instr :=
  match c.a.getLsbD 1, c.a.getLsbD 0 with
  | false, false => .wrPa (c.a.extractLsb' 2 10) c.stb c.d
  | false, true => .wrCra (c.a.extractLsb' 2 10) c.stb c.d
  | true, false => .wrPb (c.a.extractLsb' 2 10) c.stb c.d
  | true, true => .wrCrb (c.a.extractLsb' 2 10) c.stb c.d

/-- R83, in the document's order; `STB` is consulted only when `IO = 1`. -/
def decode (c : BusCycle) : Instr :=
  if c.rd && !c.io then decodeDeviceRead c
  else if c.rd && c.io && !c.stb then .rdFw (c.a.extractLsb' 8 4) (c.a.extractLsb' 0 8)
  else if c.rd && c.io && c.stb then .rdIostb c.a
  else if !c.rd && !c.io then decodeDeviceWrite c
  else if !c.rd && c.io && !c.stb then .wrIosel c.a c.d
  else .wrIostb c.a c.d

/-! ### The opcode table -/

/-- The operations' names (R84). -/
inductive Op where
  | RD_PA | RD_CRA | RD_PB | RD_CRB
  | WR_PA | WR_CRA | WR_PB | WR_CRB
  | RD_FW | RD_IOSTB | WR_IOSEL | WR_IOSTB
  deriving DecidableEq, Repr

/-- One row of R84: the cycle words with `CW AND mask = pattern`. -/
structure OpRow where
  op : Op
  mask : CycleWord
  pattern : CycleWord
  deriving DecidableEq, Repr

/-- The table of R84. -/
def opTable : List OpRow :=
  [⟨.RD_PA, 0x5003, 0x4000⟩, ⟨.RD_CRA, 0x5003, 0x4001⟩, ⟨.RD_PB, 0x5003, 0x4002⟩,
   ⟨.RD_CRB, 0x5003, 0x4003⟩, ⟨.WR_PA, 0x5003, 0x0000⟩, ⟨.WR_CRA, 0x5003, 0x0001⟩] ++
  [⟨.WR_PB, 0x5003, 0x0002⟩, ⟨.WR_CRB, 0x5003, 0x0003⟩, ⟨.RD_FW, 0x7000, 0x5000⟩,
   ⟨.RD_IOSTB, 0x7000, 0x7000⟩, ⟨.WR_IOSEL, 0x7000, 0x1000⟩, ⟨.WR_IOSTB, 0x7000, 0x3000⟩]

/-- A cycle word belongs to a row. -/
def OpRow.covers (r : OpRow) (cw : CycleWord) : Bool := cw &&& r.mask == r.pattern

/-- The operation an instruction is. -/
def Instr.op : Instr → Op
  | .rdPa _ _ => .RD_PA
  | .rdCra _ _ => .RD_CRA
  | .rdPb _ _ => .RD_PB
  | .rdCrb _ _ => .RD_CRB
  | .wrPa _ _ _ => .WR_PA
  | .wrCra _ _ _ => .WR_CRA
  | .wrPb _ _ _ => .WR_PB
  | .wrCrb _ _ _ => .WR_CRB
  | .rdFw _ _ => .RD_FW
  | .rdIostb _ => .RD_IOSTB
  | .wrIosel _ _ => .WR_IOSEL
  | .wrIostb _ _ => .WR_IOSTB

/-- The operation is a read, so it has one response (70_reset_and_hazards.md R214). -/
def Instr.isRead : Instr → Bool
  | .rdPa _ _ | .rdCra _ _ | .rdPb _ _ | .rdCrb _ _ | .rdFw _ _ | .rdIostb _ => true
  | .wrPa _ _ _ | .wrCra _ _ _ | .wrPb _ _ _ | .wrCrb _ _ _ | .wrIosel _ _ | .wrIostb _ _ => false

/-! ### The record in bytes (log entry 9) -/

/-- Why a byte string is no cycle record. -/
inductive DecodeError where
  /-- Fewer than the three bytes of a record. -/
  | tooShort
  /-- Bit 15 is set: a cycle word has 15 bits. -/
  | notACycleWord
  deriving DecidableEq, Repr

/-- A cycle read from a byte string, with the bytes after it: `CW[7:0]`, `CW[14:8]`, `D`. -/
def cycleOfBytes : List Byte → Except DecodeError (BusCycle × List Byte)
  | lo :: hi :: d :: rest =>
    if hi.getLsbD 7 then .error .notACycleWord
    else .ok (BusCycle.ofWord (hi.extractLsb' 0 7 ++ lo) d, rest)
  | _ => .error .tooShort

/-- The instruction read from a byte string, with the bytes after it; total, rejecting by name. -/
def decodeBytes (bytes : List Byte) : Except DecodeError (Instr × List Byte) :=
  match cycleOfBytes bytes with
  | .ok (c, rest) => .ok (decode c, rest)
  | .error e => .error e

/-- The three bytes of the record whose low `nbits` bits are those of `w` and whose other bits are 0. -/
def tableBytes (nbits w : Nat) : List Byte :=
  [BitVec.ofNat 8 (w % 2 ^ nbits), BitVec.ofNat 8 (w % 2 ^ nbits / 2 ^ 8), BitVec.ofNat 8 (w % 2 ^ nbits / 2 ^ 16)]

/-- The cycle a word numbered as the opcode table numbers it stands for. -/
def cycleOfTableWord (nbits w : Nat) : Option BusCycle :=
  match cycleOfBytes (tableBytes nbits w) with
  | .ok (c, _) => some c
  | .error _ => none

/-- The instruction the decoder reads from a word numbered as the opcode table numbers it. -/
def decodeTableWord (nbits w : Nat) : Option Instr :=
  match decodeBytes (tableBytes nbits w) with
  | .ok (i, _) => some i
  | .error _ => none

/-! ### The encoder -/

/-- A device-select cycle: `A = {hi, reg}`. -/
def deviceCycle (rd : Bool) (hi : HighBits) (reg : BitVec 2) (stb : Bool) (d : Byte) : BusCycle where
  a := hi ++ reg
  io := false
  stb := stb
  rd := rd
  d := d

/-- A cycle of an I/O region. -/
def ioCycle (rd stb : Bool) (a : Addr) (d : Byte) : BusCycle where
  a := a
  io := true
  stb := stb
  rd := rd
  d := d

/-- The cycle of an instruction (R84); a read carries no data, written 0 (log entry 10). -/
def encode : Instr → BusCycle
  | .rdPa hi stb => deviceCycle true hi 0 stb 0
  | .rdCra hi stb => deviceCycle true hi 1 stb 0
  | .rdPb hi stb => deviceCycle true hi 2 stb 0
  | .rdCrb hi stb => deviceCycle true hi 3 stb 0
  | .wrPa hi stb d => deviceCycle false hi 0 stb d
  | .wrCra hi stb d => deviceCycle false hi 1 stb d
  | .wrPb hi stb d => deviceCycle false hi 2 stb d
  | .wrCrb hi stb d => deviceCycle false hi 3 stb d
  | .rdFw page off => ioCycle true false (page ++ off) 0
  | .rdIostb a => ioCycle true true a 0
  | .wrIosel a d => ioCycle false false a d
  | .wrIostb a d => ioCycle false true a d

/-- The record of an instruction in bytes: `CW[7:0]`, `CW[14:8]` with a 0 above it, `D`. -/
def encodeBytes (i : Instr) : List Byte :=
  [(encode i).word.extractLsb' 0 8, (encode i).word.extractLsb' 8 7 |>.setWidth 8, (encode i).d]

end Sys2Proof
end

