-- ==== Sys2Proof/Machine/Flags.lean ====
section
/-! DEFINITION. The block has no flags (10_state.md R33). What stands in their place is the one state bit
that changes an operation, `ORSEL`, and the one value computed as a side effect, the bank function. -/

namespace Sys2Proof.Machine

/-- `ORSEL`, bit 2 of a control register (10_state.md R22): true selects the output register. -/
def orsel (c : Ctrl) : Bool := c.getLsbD 2

/-- `f_bank(ob, db) = (ob AND db AND 0x0E) << 7`, 11 bits wide (10_state.md R25). -/
def fBank (ob db : Byte) : Bank := (ob &&& db &&& 0x0E).setWidth 11 <<< 7

end Sys2Proof.Machine
end

