-- ==== Sys2Proof/Config.lean ====
section
/-! DEFINITION. The implementation parameters of 00_scope.md R6, and the free values of R8.
A parameter is plain data that `State.params` carries and no step changes, so a statement about every
state is a statement about every value of it, as R12 asks (log entries 1 to 3). -/

namespace Sys2Proof.Config

/-- `DEVSEL_HIGH_BITS` (20_memory.md R54). -/
inductive DevselHighBits where
  | ignore
  | refuse
  deriving DecidableEq, Repr

/-- `REG_RESET_POLICY` (10_state.md R36). -/
inductive RegResetPolicy where
  | zero
  | keep
  | any
  deriving DecidableEq, Repr

/-- A read-only memory as plain data: the cells that are given. -/
abbrev Memory := List Host.Cell

/-- The parameters of R6. `FW_SIZE` is a power of two and at least `0x800`, so what is kept of it is how
many doublings above `0x800` it lies. `fwImage` lists the bytes of `FW_IMAGE` that are given; every other
byte is `fwByte` (log entry 2). -/
structure Params where
  devselHighBits : DevselHighBits
  regResetPolicy : RegResetPolicy
  extMaskA : Byte
  extMaskB : Byte
  fwDoublings : Nat
  fwImage : Memory
  deriving DecidableEq, Repr

/-- `FW_SIZE` (R6). -/
def Params.fwSize (p : Params) : Nat := 2 ^ (11 + p.fwDoublings)

/-- The defaults of R6; of `FW_IMAGE`, which is OPEN, no byte is given. -/
def Params.default : Params where
  devselHighBits := .ignore
  regResetPolicy := .zero
  extMaskA := 0xFF
  extMaskB := 0xFF
  fwDoublings := 0
  fwImage := []

/-- FREE VALUE: the byte of `FW_IMAGE` at an index the parameters do not list (10_state.md R29: the
contents are not in the source). -/
opaque fwByte (index : Nat) : Byte

/-- FREE VALUE: the `n`-th `draw()` of width `w` (R8). -/
opaque draw (w n : Nat) : BitVec w

end Sys2Proof.Config
end

