-- ==== Sys2Proof/Machine/Operands.lean ====
section
/-! DEFINITION. Operand assembly (30_encoding.md R81, R82) and the tests of the parameters on an operand. -/

namespace Sys2Proof.Machine

open Config

/-- What a control write stores of its data: `D[5:0]` (R82). -/
def ctrlOfData (d : Byte) : Ctrl := d.setWidth 6

/-- What a control register reads as: `{00, ControlX}` (10_state.md R21). -/
def dataOfCtrl (c : Ctrl) : Byte := c.setWidth 8

/-- The firmware index `zext_11(OFF) OR BankOffset` (20_memory.md R57). -/
def fwIndex (off : Byte) (bank : Bank) : Bank := off.setWidth 11 ||| bank

/-- The byte a memory lists at an index. -/
def memRead : Memory → Nat → Option Byte
  | [], _ => none
  | (j, v) :: rest, i => if j = i then some v else memRead rest i

/-- `FwRead(i)` (00_scope.md R8): the byte of `FW_IMAGE` at `i`, which is free where the parameters do not
give it (log entry 2). -/
def fwRead (p : Params) (i : Nat) : Byte := (memRead p.fwImage i).getD (fwByte i)

/-- The value of a masked write: `(old AND NOT m) OR (v AND m)` (42_external_port.md R160). -/
def maskedWrite (old m v : Byte) : Byte := (old &&& ~~~m) ||| (v &&& m)

/-- `DEVSEL_HIGH_BITS = refuse` refuses a device-select address with `A[3:2] != 0`; bits `A[11:4]` are
ignored under both settings (20_memory.md R54). -/
def devselRefused (p : Params) (hi : HighBits) : Bool :=
  hi.extractLsb' 0 2 != 0 && p.devselHighBits == .refuse

/-- The bits the external agent may change (00_scope.md R6). -/
def extMask (p : Params) : Port → Byte
  | .a => p.extMaskA
  | .b => p.extMaskB

end Sys2Proof.Machine
end

