-- ==== Sys2Proof/Machine/State.lean ====
section
/-! DEFINITION. The block's state (10_state.md R20), what the model carries beside it, the reasons a step
can stop, and the state at power-on (R35). -/

namespace Sys2Proof.Machine

/-- The state record of R20, which is also what the observation port shows (42_external_port.md R164). -/
structure Registers where
  controlA : Ctrl
  controlB : Ctrl
  dataDirA : Byte
  dataDirB : Byte
  outputA : Byte
  outputB : Byte
  bankOffset : Bank
  deriving DecidableEq, Repr

/-- How far the platform's boot has come (70_reset_and_hazards.md R207, its steps 1 to 4). -/
inductive BootPhase where
  /-- The state has its power-on values. -/
  | poweredOn
  /-- The bus-snoop producer is initialised. -/
  | producerInitialised
  /-- The reset callback is registered. -/
  | callbackRegistered
  /-- The decoder loop services cycles. -/
  | looping
  deriving DecidableEq, Repr

/-- The whole machine. `regs` is the spec's state; the other fields are the model's own: the parameters
(log entry 1), the boot phase and who goes first at each turn of the boot (6), the events still to be
served, the next one first (4), the `rdata` bytes given so far, the oldest first (5), how often the Mouse State Producer's reset entry point was
signalled (8), and how many free values were taken (3). -/
structure State where
  regs : Registers
  params : Config.Params
  boot : BootPhase
  bootFirst : List Bool
  arrivals : List Event
  responses : List Byte
  mouseResets : Nat
  draws : Nat
  deriving DecidableEq, Repr

/-- The faults: none, because the block raises no exception and has no fault output (60_exceptions.md
R180). Nobody raises one; safe, since there is none to rely on. -/
inductive Fault where
  deriving DecidableEq, Repr

/-- The refusals. The hardware refuses nothing; these are the model's (60_exceptions.md R180). -/
inductive Refusal where
  /-- Raised by an arm of `exec` whose instruction has no meaning yet. Safe: the model stops. -/
  | notModelled (mnemonic : String)
  /-- Raised by `gate` for a device-select cycle with `A[3:2] != 0` under `DEVSEL_HIGH_BITS = refuse`
  (20_memory.md R54). Safe: the model stops. -/
  | devselHighBits
  /-- Raised by `gate` for an external mutation with a mask outside `EXT_MASK_A` or `EXT_MASK_B`
  (42_external_port.md R160, R161). Safe: the model stops. -/
  | extMask (port : Port)
  deriving DecidableEq, Repr

/-- The power-on values of 10_state.md R35 (the spec's own decision D14; log entry 11). -/
def Registers.powerOn : Registers where
  controlA := 0
  controlB := 0
  dataDirA := 0
  dataDirB := 0
  outputA := 0
  outputB := 0
  bankOffset := 0

/-- The machine at power-on (70_reset_and_hazards.md R200): boot step 1 of R207 is done and nothing has
arrived (log entries 1, 3 to 6, 8). -/
def State.reset : State where
  regs := Registers.powerOn
  params := Config.Params.default
  boot := .poweredOn
  bootFirst := []
  arrivals := []
  responses := []
  mouseResets := 0
  draws := 0

end Sys2Proof.Machine
end

