-- ==== Sys2Proof/Machine/Ops.lean ====
section
/-! DEFINITION. The operations over the registers that the meanings and the events share. The block takes
no exception and returns from none (60_exceptions.md R180, R185), so no such operation stands here; reset
is an event that changes only the fields of 10_state.md R36. -/

namespace Sys2Proof.Machine

open Config

/-! ### The registers by port (10_state.md R21 to R24) -/

def Registers.control (r : Registers) : Port → Ctrl
  | .a => r.controlA
  | .b => r.controlB

def Registers.output (r : Registers) : Port → Byte
  | .a => r.outputA
  | .b => r.outputB

def Registers.dataDir (r : Registers) : Port → Byte
  | .a => r.dataDirA
  | .b => r.dataDirB

def Registers.setControl (p : Port) (c : Ctrl) (r : Registers) : Registers :=
  match p with
  | .a => { r with controlA := c }
  | .b => { r with controlB := c }

def Registers.setOutput (p : Port) (v : Byte) (r : Registers) : Registers :=
  match p with
  | .a => { r with outputA := v }
  | .b => { r with outputB := v }

def Registers.setDataDir (p : Port) (v : Byte) (r : Registers) : Registers :=
  match p with
  | .a => { r with dataDirA := v }
  | .b => { r with dataDirB := v }

/-- `BankOffset <- f_bank(OutputB, DataDirB)` (10_state.md R26). -/
def Registers.recompute (r : Registers) : Registers := { r with bankOffset := fBank r.outputB r.dataDirB }

/-- After a write to a port: port B recomputes the bank latch, port A does not (10_state.md R26). -/
def Registers.settle (p : Port) (r : Registers) : Registers :=
  match p with
  | .a => r
  | .b => r.recompute

/-- A host write of a data address: the output register if `ORSEL`, else the data-direction register
(10_state.md R22). This is sub-step W of 70_reset_and_hazards.md R204. -/
def Registers.storeData (p : Port) (d : Byte) (r : Registers) : Registers :=
  if orsel (r.control p) then r.setOutput p d else r.setDataDir p d

/-- The external agent's masked write of an output register (42_external_port.md R160, R161). -/
def Registers.extWrite (p : Port) (m v : Byte) (r : Registers) : Registers :=
  (r.setOutput p (maskedWrite (r.output p) m v)).settle p

/-- The registers after a host reset (10_state.md R36), the draws taken from the `n`-th on. -/
def Registers.hostReset (policy : RegResetPolicy) (n : Nat) (r : Registers) : Registers :=
  match policy with
  | .zero => Registers.powerOn
  | .keep => { r with bankOffset := 0 }
  | .any =>
    { controlA := draw 6 n
      controlB := draw 6 (n + 1)
      dataDirA := draw 8 (n + 2)
      dataDirB := draw 8 (n + 3)
      outputA := draw 8 (n + 4)
      outputB := draw 8 (n + 5)
      bankOffset := 0 }

/-- How many draws a host reset takes. -/
def resetDraws : RegResetPolicy → Nat
  | .zero => 0
  | .keep => 0
  | .any => 6

/-- The `BankOffset` a reset inside a `WR_PB` leaves (70_reset_and_hazards.md R204): `w` are the registers
after sub-step W, `z` those after the reset. -/
def raceBank (w z : Registers) : RaceOutcome → Bank
  | .resetLast => 0
  | .decoderStale => fBank w.outputB w.dataDirB
  | .decoderFresh => fBank z.outputB z.dataDirB

/-! ### On the machine -/

def State.setRegs (r : Registers) (s : State) : State := { s with regs := r }

/-- `Respond(v)`: drive `v` as the read data of the cycle (00_scope.md R8). -/
def State.respond (v : Byte) (s : State) : State := { s with responses := s.responses ++ [v] }

/-- `n` free values have been taken. -/
def State.skipDraws (n : Nat) (s : State) : State := { s with draws := s.draws + n }

/-- Signal the Mouse State Producer's reset entry point (42_external_port.md R166). -/
def State.signalMouse (s : State) : State := { s with mouseResets := s.mouseResets + 1 }

def State.setArrivals (l : List Event) (s : State) : State := { s with arrivals := l }

def State.setBoot (b : BootPhase) (s : State) : State := { s with boot := b }

def State.setBootFirst (l : List Bool) (s : State) : State := { s with bootFirst := l }

/-- `RespondUndefined()`: the host reads a fresh draw (00_scope.md R8). -/
def State.respondUndefined (s : State) : State := (s.respond (draw 8 s.draws)).skipDraws 1

/-- A host read of a data address: the output register, whatever `ORSEL` holds (10_state.md R24). -/
def readData (p : Port) (s : State) : State := s.respond (s.regs.output p)

/-- A host read of a control address. -/
def readControl (p : Port) (s : State) : State := s.respond (dataOfCtrl (s.regs.control p))

/-- A host write of a data address, with the bank latch recomputed on port B in the same step. -/
def writeData (p : Port) (d : Byte) (s : State) : State := s.setRegs ((s.regs.storeData p d).settle p)

/-- A host write of a control address. -/
def writeControl (p : Port) (d : Byte) (s : State) : State := s.setRegs (s.regs.setControl p (ctrlOfData d))

/-- A host read of the firmware window (20_memory.md R57). -/
def readFirmware (off : Byte) (s : State) : State :=
  s.respond (fwRead s.params (fwIndex off s.regs.bankOffset).toNat)

/-- The observation port: the whole record of 10_state.md R20 (42_external_port.md R164). -/
def State.observe (s : State) : Registers := s.regs

/-- The next boot step (70_reset_and_hazards.md R207). -/
def BootPhase.next : BootPhase → BootPhase
  | .poweredOn => .producerInitialised
  | .producerInitialised => .callbackRegistered
  | .callbackRegistered => .looping
  | .looping => .looping

/-- What is left of the boot's schedule after a turn: the loop takes nothing from it (log entry 6). -/
def scheduleAfter : BootPhase → List Bool → List Bool
  | .looping, l => l
  | .poweredOn, l => l.tail
  | .producerInitialised, l => l.tail
  | .callbackRegistered, l => l.tail

/-- A turn of the platform begins. -/
def State.takeTurn (s : State) : State := s.setBootFirst (scheduleAfter s.boot s.bootFirst)

end Sys2Proof.Machine
end

