-- ==== Sys2Proof/Machine/DeviceSelect.lean ====
section
/-! DEFINITION. The eight operations of the device-select region (40_device_select.md). The ignored bits
`A[11:2]` and `STB` are operands with no effect (30_encoding.md R84). -/

namespace Sys2Proof.Machine

/-- R100. -/
def execRdPa (_hi : HighBits) (_stb : Bool) (s : State) : Host.Outcome State Fault Refusal :=
  .next (readData .a s)

/-- R101. -/
def execRdCra (_hi : HighBits) (_stb : Bool) (s : State) : Host.Outcome State Fault Refusal :=
  .next (readControl .a s)

/-- R102. -/
def execRdPb (_hi : HighBits) (_stb : Bool) (s : State) : Host.Outcome State Fault Refusal :=
  .next (readData .b s)

/-- R103. -/
def execRdCrb (_hi : HighBits) (_stb : Bool) (s : State) : Host.Outcome State Fault Refusal :=
  .next (readControl .b s)

/-- R104. -/
def execWrPa (_hi : HighBits) (_stb : Bool) (d : Byte) (s : State) : Host.Outcome State Fault Refusal :=
  .next (writeData .a d s)

/-- R105. -/
def execWrCra (_hi : HighBits) (_stb : Bool) (d : Byte) (s : State) : Host.Outcome State Fault Refusal :=
  .next (writeControl .a d s)

/-- R106. -/
def execWrPb (_hi : HighBits) (_stb : Bool) (d : Byte) (s : State) : Host.Outcome State Fault Refusal :=
  .next (writeData .b d s)

/-- R107. -/
def execWrCrb (_hi : HighBits) (_stb : Bool) (d : Byte) (s : State) : Host.Outcome State Fault Refusal :=
  .next (writeControl .b d s)

end Sys2Proof.Machine
end

