-- ==== Sys2Proof/Machine/IoSelect.lean ====
section
/-! DEFINITION. The four operations of the I/O regions (41_io_select.md). -/

namespace Sys2Proof.Machine

/-- R140: `A[11:8]` is ignored. -/
def execRdFw (_page : BitVec 4) (off : Byte) (s : State) : Host.Outcome State Fault Refusal :=
  .next (readFirmware off s)

/-- R141: undefined read data, a draw of its own for each read (log entry 14). -/
def execRdIostb (_a : Addr) (s : State) : Host.Outcome State Fault Refusal :=
  .next s.respondUndefined

/-- R142: no effect. -/
def execWrIosel (_a : Addr) (_d : Byte) (s : State) : Host.Outcome State Fault Refusal :=
  .next s

/-- R143: no effect. -/
def execWrIostb (_a : Addr) (_d : Byte) (s : State) : Host.Outcome State Fault Refusal :=
  .next s

end Sys2Proof.Machine
end

