-- ==== Sys2Proof/Machine/Dispatch.lean ====
section
/-! DEFINITION. One arm per operation of 30_encoding.md R84. -/

namespace Sys2Proof.Machine

def exec (i : Instr) (s : State) : Host.Outcome State Fault Refusal :=
  match i with
  | .rdPa hi stb => Sys2Proof.Machine.execRdPa hi stb s
  | .rdCra hi stb => Sys2Proof.Machine.execRdCra hi stb s
  | .rdPb hi stb => Sys2Proof.Machine.execRdPb hi stb s
  | .rdCrb hi stb => Sys2Proof.Machine.execRdCrb hi stb s
  | .wrPa hi stb d => Sys2Proof.Machine.execWrPa hi stb d s
  | .wrCra hi stb d => Sys2Proof.Machine.execWrCra hi stb d s
  | .wrPb hi stb d => Sys2Proof.Machine.execWrPb hi stb d s
  | .wrCrb hi stb d => Sys2Proof.Machine.execWrCrb hi stb d s
  | .rdFw page off => Sys2Proof.Machine.execRdFw page off s
  | .rdIostb a => Sys2Proof.Machine.execRdIostb a s
  | .wrIosel a d => Sys2Proof.Machine.execWrIosel a d s
  | .wrIostb a d => Sys2Proof.Machine.execWrIostb a d s

end Sys2Proof.Machine
end

