-- ==== Sys2Proof/Machine/Events.lean ====
section
/-! DEFINITION. The events that have no cycle word: the two reset events, the external mutation, and the
reset that falls inside a `WR_PB`. -/

namespace Sys2Proof.Machine

/-- `RESET_ASSERT` (70_reset_and_hazards.md R201). -/
def resetAssert (s : State) : State :=
  ((s.setRegs (s.regs.hostReset s.params.regResetPolicy s.draws)).skipDraws
    (resetDraws s.params.regResetPolicy)).signalMouse

/-- `RESET_DEASSERT` (70_reset_and_hazards.md R202): no effect. -/
def resetDeassert (s : State) : State := s

/-- `EXT_WR_A(m, v)`, for a mask `gate` let through (42_external_port.md R160). -/
def extWrA (m v : Byte) (s : State) : State := s.setRegs (s.regs.extWrite .a m v)

/-- `EXT_WR_B(m, v)`, for a mask `gate` let through (42_external_port.md R161). -/
def extWrB (m v : Byte) (s : State) : State := s.setRegs (s.regs.extWrite .b m v)

/-- A `WR_PB` of `d` with a `RESET_ASSERT` after its register write and before its `BankOffset` store
(70_reset_and_hazards.md R204): the registers are those of R201 applied to the state after the register
write, and `BankOffset` is one of the three values. -/
def wrPbRace (d : Byte) (outcome : RaceOutcome) (s : State) : State :=
  let w := s.setRegs (s.regs.storeData .b d)
  let z := resetAssert w
  z.setRegs { z.regs with bankOffset := raceBank w.regs z.regs outcome }

end Sys2Proof.Machine
end

