-- ==== Sys2Proof/Machine/Serve.lean ====
section
/-! DEFINITION. One turn of the decoder loop (10_state.md R32): take the event that arrives next and serve
it as one atomic step (20_memory.md R63). -/

namespace Sys2Proof.Machine

/-- The refusals of 20_memory.md R54 and 42_external_port.md R160, made before anything is decoded
(30_encoding.md R83). -/
def gate (p : Config.Params) : Event → Option Refusal
  | .cycle c => if !c.io && devselRefused p (c.a.extractLsb' 2 10) then some .devselHighBits else none
  | .reset _ => none
  | .ext port m _ => if m &&& ~~~extMask p port = 0 then none else some (.extMask port)
  | .wrPbRace hi _ _ _ => if devselRefused p hi then some .devselHighBits else none

/-- The effect of an event that `gate` lets through. -/
def serve (e : Event) (s : State) : Host.Outcome State Fault Refusal :=
  match e with
  | .cycle c => exec (decode c) s
  | .reset true => .next (resetAssert s)
  | .reset false => .next (resetDeassert s)
  | .ext .a m v => .next (extWrA m v s)
  | .ext .b m v => .next (extWrB m v s)
  | .wrPbRace _ _ d outcome => .next (wrPbRace d outcome s)

/-- Serve the event that arrives next; while none has arrived, the loop goes on polling and nothing
changes (log entry 4). -/
def serveNext (s : State) : Host.Outcome State Fault Refusal :=
  match s.arrivals with
  | [] => .next s
  | e :: rest =>
    match gate s.params e with
    | some r => .refused r
    | none => serve e (s.setArrivals rest)

/-- The event is one of the external agent's, which 70_reset_and_hazards.md R207 does not hold back. -/
def isMutation : Event → Bool
  | .ext _ _ _ => true
  | .cycle _ | .reset _ | .wrPbRace _ _ _ _ => false

/-- While the platform boots: an external mutation has arrived, and the next boot step does not come before
it. Both orders may happen (42_external_port.md R163), so `bootFirst` says which (log entry 6). -/
def State.mutationFirst (s : State) : Bool :=
  s.arrivals.head?.any isMutation && s.bootFirst.head? != some true

/-- A step of the platform. Once the loop runs, one turn of it. Before that, the next boot step, with no
cycle serviced and no reset delivered (70_reset_and_hazards.md R207), or an external mutation, which may
occur between any two steps (42_external_port.md R163) from power-on (60_exceptions.md R189). -/
def turn (s : State) : Host.Outcome State Fault Refusal :=
  match s.boot with
  | .looping => serveNext s
  | .poweredOn | .producerInitialised | .callbackRegistered =>
    if s.mutationFirst then serveNext s.takeTurn else .next (s.takeTurn.setBoot s.boot.next)

/-- `s` with its loop running and the cycle of a table word arriving next (log entries 6 and 9). A word
that is no cycle word cannot arrive. -/
def placeTableWord (nbits w : Nat) (s : State) : State :=
  match cycleOfTableWord nbits w with
  | some c => (s.setBoot .looping).setArrivals (.cycle c :: s.arrivals)
  | none => s

end Sys2Proof.Machine
end

