-- ==== Sys2Proof/Machine/Trace.lean ====
section
/-! DEFINITION. The trace lines of 30_encoding.md R88 and R89 and the pseudo-operations of R90, as data. A
line's text is notation only (the spec's decision D24); what the model keeps of it is its event. -/

namespace Sys2Proof.Machine

/-- A line of a trace: the six bus lines of R88 and the four lines of R89. -/
inductive TraceLine where
  | rdDev (a : Addr)
  | wrDev (a : Addr) (d : Byte)
  | rdIosel (a : Addr)
  | wrIosel (a : Addr) (d : Byte)
  | rdIostb (a : Addr)
  | wrIostb (a : Addr) (d : Byte)
  | resetLine (asserted : Bool)
  | extLine (port : Port) (m v : Byte)
  deriving DecidableEq, Repr

/-- The cycle of a cycle word given as R88 gives it: `base OR A`. -/
def lineCycle (base : CycleWord) (a : Addr) (d : Byte) : Event :=
  .cycle (BusCycle.ofWord (base ||| a.setWidth 15) d)

/-- The event of a line. -/
def lineEvent : TraceLine → Event
  | .rdDev a => lineCycle 0x4000 a 0
  | .wrDev a d => lineCycle 0x0000 a d
  | .rdIosel a => lineCycle 0x5000 a 0
  | .wrIosel a d => lineCycle 0x1000 a d
  | .rdIostb a => lineCycle 0x7000 a 0
  | .wrIostb a d => lineCycle 0x3000 a d
  | .resetLine asserted => .reset asserted
  | .extLine port m v => .ext port m v

/-- The data address and the control address of a port, above the device-select address `{hi, 00}`. -/
def dataAddr (hi : HighBits) : Port → Addr
  | .a => hi ++ 0#2
  | .b => hi ++ 2#2

def controlAddr (hi : HighBits) : Port → Addr
  | .a => hi ++ 1#2
  | .b => hi ++ 3#2

/-- `SETDDR X, V` (R90). -/
def setDdr (hi : HighBits) (p : Port) (v : Byte) : List TraceLine :=
  [.wrDev (controlAddr hi p) 0x00, .wrDev (dataAddr hi p) v]

/-- `SETOR X, V` (R90). -/
def setOr (hi : HighBits) (p : Port) (v : Byte) : List TraceLine :=
  [.wrDev (controlAddr hi p) 0x04, .wrDev (dataAddr hi p) v]

/-- `SELBANK n` (R90). -/
def selBank (hi : HighBits) (n : BitVec 3) : List TraceLine :=
  setDdr hi .b 0x0E ++ setOr hi .b (n.setWidth 8 <<< 1)

end Sys2Proof.Machine
end

