-- ==== Sys2Proof/WellFormed.lean ====
section
/-! DEFINITION. Which parameters, cycles and events the spec admits. The field widths are in the types;
what is left to check are the refusals of 20_memory.md R54 and 42_external_port.md R160, and the form of
the firmware image. The step tests the events again, by its own definition (`Machine/Serve.lean`); an
obligation says that the two agree. -/

namespace Sys2Proof

/-- The canonical form of a firmware image: indexes strictly rising, each below `size`, and no cell equal
to what an unlisted index reads as. -/
def Config.Memory.wf (size : Nat) : Config.Memory → Bool
  | [] => true
  | (i, v) :: rest =>
    decide (i < size) && v != Config.fwByte i && rest.all (fun cell => decide (i < cell.1)) &&
      Config.Memory.wf size rest

/-- The parameters are as R6 asks. -/
def Config.Params.wf (p : Config.Params) : Bool := Config.Memory.wf p.fwSize p.fwImage

/-- The high bits `A[11:2]` of a device-select cycle are ones `DEVSEL_HIGH_BITS` admits: under `refuse`,
those with `A[3:2] = 0`. -/
def Config.Params.admitsHighBits (p : Config.Params) (hi : HighBits) : Bool :=
  match p.devselHighBits with
  | .ignore => true
  | .refuse => !hi.getLsbD 0 && !hi.getLsbD 1

/-- The mutation's mask lies inside the bits the external agent may change. -/
def Config.Params.admitsMask (p : Config.Params) (port : Port) (m : Byte) : Bool :=
  match port with
  | .a => m &&& ~~~p.extMaskA == 0
  | .b => m &&& ~~~p.extMaskB == 0

/-- An operation the parameters admit. -/
def Instr.wf (p : Config.Params) : Instr → Bool
  | .rdPa hi _ | .rdCra hi _ | .rdPb hi _ | .rdCrb hi _ => p.admitsHighBits hi
  | .wrPa hi _ _ | .wrCra hi _ _ | .wrPb hi _ _ | .wrCrb hi _ _ => p.admitsHighBits hi
  | .rdFw _ _ | .rdIostb _ | .wrIosel _ _ | .wrIostb _ _ => true

/-- An event the parameters admit: a cycle with admitted high bits, a mutation inside its mask. -/
def Event.wf (p : Config.Params) : Event → Bool
  | .cycle c => c.io || p.admitsHighBits (c.a.extractLsb' 2 10)
  | .reset _ => true
  | .ext port m _ => p.admitsMask port m
  | .wrPbRace hi _ _ _ => p.admitsHighBits hi

end Sys2Proof
end

