-- ==== Sys2Proof/Safety.lean ====
section
/-! DEFINITION. What claims about runs are stated in: the invariants of 10_state.md R26 and R27, the runs
the parameters admit, and what the host can see of a run. -/

namespace Sys2Proof.Safety

open Sys2Proof.Machine

/-- `BankOffset` is page-aligned (10_state.md R27). -/
def PageAligned (s : State) : Prop := s.regs.bankOffset.extractLsb' 0 8 = 0

/-- The invariant of 10_state.md R26: the latch holds the bank function of the registers. -/
def LatchConsistent (s : State) : Prop := s.regs.bankOffset = fBank s.regs.outputB s.regs.dataDirB

/-- The event is a reset that falls inside a `WR_PB`. -/
def isRace : Event → Bool
  | .wrPbRace _ _ _ _ => true
  | .cycle _ | .reset _ | .ext _ _ _ => false

/-- No case of R203 or R204 lies ahead: the reset policy is `zero` and no race is among the arrivals. -/
def NoStaleReset (s : State) : Prop :=
  s.params.regResetPolicy = .zero ∧ s.arrivals.all (fun e => !isRace e) = true

/-- Every event still to be served is one the parameters admit. -/
def Admitted (s : State) : Prop := s.arrivals.all (Event.wf s.params) = true

/-- The event is a read cycle, which has one response (70_reset_and_hazards.md R214). -/
def isReadCycle : Event → Bool
  | .cycle c => c.rd
  | .reset _ | .ext _ _ _ | .wrPbRace _ _ _ _ => false

/-- The machine never stops from `s`. -/
def NeverStops (s : State) : Prop := ∀ k, ∃ t, core.run k s = .next t

/-- `f_bank` written bit by bit, as 10_state.md R25 gives it a second time: bits 10:8 are
`(ob AND db)[3:1]`, bits 7:0 are 0. -/
def pageBase (ob db : Byte) : Bank := (ob &&& db).extractLsb' 1 3 ++ 0#8

/-! ### Who writes a field (the table of 10_state.md R30) -/

/-- The fields of the state record. -/
inductive Field where
  | control (p : Port)
  | dataDir (p : Port)
  | output (p : Port)
  | bank
  deriving DecidableEq, Repr

/-- The two records agree in a field. -/
def Field.agrees (r r' : Registers) : Field → Prop
  | .control p => r'.control p = r.control p
  | .dataDir p => r'.dataDir p = r.dataDir p
  | .output p => r'.output p = r.output p
  | .bank => r'.bankOffset = r.bankOffset

/-- The host's cycles that write a field, in a state with registers `r` (R30, R26). -/
def Field.writtenByOp (r : Registers) (f : Field) : Op → Bool
  | .WR_CRA => f == .control .a
  | .WR_CRB => f == .control .b
  | .WR_PA => f == if orsel r.controlA then .output .a else .dataDir .a
  | .WR_PB => f == .bank || f == if orsel r.controlB then .output .b else .dataDir .b
  | .RD_PA | .RD_CRA | .RD_PB | .RD_CRB | .RD_FW | .RD_IOSTB | .WR_IOSEL | .WR_IOSTB => false

/-- The events that write a field: the host's cycles, the external agent's mutations of an output register
(with the recomputation of R26 on port B), and a host reset, which writes every field. -/
def Field.writtenBy (r : Registers) (f : Field) : Event → Bool
  | .cycle c => f.writtenByOp r (decode c).op
  | .reset asserted => asserted
  | .ext .a _ _ => f == .output .a
  | .ext .b _ _ => f == .output .b || f == .bank
  | .wrPbRace _ _ _ _ => true

/-! ### What cannot be told apart -/

/-- Two machines that differ at most in `DataDirA` (10_state.md R37). -/
def SameButDataDirA (s t : State) : Prop :=
  t = { s with regs := { s.regs with dataDirA := t.regs.dataDirA } }

/-- Two machines that differ at most in control-register bits other than `ORSEL` (10_state.md R22, R33). -/
def SameButIdleControlBits (s t : State) : Prop :=
  t = { s with regs := { s.regs with controlA := t.regs.controlA, controlB := t.regs.controlB } } ∧
    orsel t.regs.controlA = orsel s.regs.controlA ∧ orsel t.regs.controlB = orsel s.regs.controlB

end Sys2Proof.Safety
end

