-- ==== Sys2Proof/Certificates/Slice0/Obligations.lean ====
section
/-! DEFINITION. The statements for the provers. A next state is written out whole wherever the spec fixes
it, so that what an instruction leaves unchanged is part of the statement. No operation writes memory
(20_memory.md R61): `FW_IMAGE` is in `params`, which every statement keeps. -/

open Sys2Proof Sys2Proof.Machine Sys2Proof.Config Sys2Proof.Safety

/-! ### Encoding and decode -/

/-- 30_encoding.md R91: the example decodes, with the words its lines stand for. -/
def Obligations.ExampleWordsDecode : Prop :=
  decode (BusCycle.ofWord 0b000000011000011#15 0x04) = .wrCrb 0b0000110000 false 0x04 ∧
  decode (BusCycle.ofWord 0b101010010100000#15 0x00) = .rdFw 0x4 0xA0 ∧
  decode (BusCycle.ofWord 0b111100000000000#15 0x00) = .rdIostb 0x800 ∧
  decode (BusCycle.ofWord 0b011100000000000#15 0x12) = .wrIostb 0x800 0x12 ∧
  decode (BusCycle.ofWord 0b110000000000010#15 0x00) = .rdPb 0 true

/-- 30_encoding.md R83, one clause per branch of its chain (`REG` and the place of `STB` in the chain are
the spec's decisions D4 and D6; log entry 12). -/
def Obligations.DecodeClassifiesInOrder : Prop :=
  ∀ c : BusCycle,
    (c.rd = true → c.io = false →
      (decode c).op = [Op.RD_PA, .RD_CRA, .RD_PB, .RD_CRB].getD (c.a.extractLsb' 0 2).toNat .RD_PA) ∧
    (c.rd = true → c.io = true → c.stb = false → (decode c).op = .RD_FW) ∧
    (c.rd = true → c.io = true → c.stb = true → (decode c).op = .RD_IOSTB) ∧
    (c.rd = false → c.io = false →
      (decode c).op = [Op.WR_PA, .WR_CRA, .WR_PB, .WR_CRB].getD (c.a.extractLsb' 0 2).toNat .WR_PA) ∧
    (c.rd = false → c.io = true → c.stb = false → (decode c).op = .WR_IOSEL) ∧
    (c.rd = false → c.io = true → c.stb = true → (decode c).op = .WR_IOSTB)

/-- 30_encoding.md R84: a cycle word decodes to an operation exactly when it has the operation's mask and
match (the packing is the spec's decision D2; log entry 12). -/
def Obligations.DecodeFollowsTheOperationTable : Prop :=
  ∀ r ∈ opTable, ∀ (cw : CycleWord) (d : Byte),
    (cw &&& r.mask = r.pattern ↔ (decode (BusCycle.ofWord cw d)).op = r.op)

/-- 30_encoding.md R85, which the spec derives from R83 and R84: every cycle word matches exactly one row. -/
def Obligations.EveryCycleWordMatchesOneRow : Prop :=
  ∀ cw : CycleWord, ∃ r, opTable.filter (fun row => row.covers cw) = [r]

/-- Decode and encode agree, on cycles and on the records in bytes (log entry 9), for every instruction. -/
def Obligations.DecodeOfEncode : Prop :=
  ∀ (i : Instr) (rest : List Byte),
    decode (encode i) = i ∧ decodeBytes (encodeBytes i ++ rest) = .ok (i, rest)

/-- No bit of a cycle is lost but the data byte of a read, which carries none (30_encoding.md R80; log
entry 10). -/
def Obligations.EncodeOfDecode : Prop :=
  ∀ c : BusCycle, encode (decode c) = { c with d := if c.rd then 0 else c.d }

/-- The byte record is rejected exactly when it is short of three bytes or its word has more than 15 bits
(the record is the model's; log entry 9). -/
def Obligations.ByteRecordRejections : Prop :=
  (∀ bytes : List Byte, decodeBytes bytes = .error .tooShort ↔ bytes.length < 3) ∧
  (∀ (lo hi d : Byte) (rest : List Byte),
    decodeBytes (lo :: hi :: d :: rest) = .error .notACycleWord ↔ 0x80 ≤ hi.toNat)

/-- 30_encoding.md R88: the cycle of each bus line (`D24` of the spec: the syntax is its own). -/
def Obligations.TraceLinesGiveTheirCycles : Prop :=
  ∀ (a : Addr) (d : Byte),
    lineEvent (.rdDev a) = .cycle ⟨a, false, false, true, 0⟩ ∧
    lineEvent (.wrDev a d) = .cycle ⟨a, false, false, false, d⟩ ∧
    lineEvent (.rdIosel a) = .cycle ⟨a, true, false, true, 0⟩ ∧
    lineEvent (.wrIosel a d) = .cycle ⟨a, true, false, false, d⟩ ∧
    lineEvent (.rdIostb a) = .cycle ⟨a, true, true, true, 0⟩ ∧
    lineEvent (.wrIostb a d) = .cycle ⟨a, true, true, false, d⟩

/-! ### The operations, each with its whole next state -/

/-- R100 and R102: `RD_PA` and `RD_PB` respond the output register whatever `ORSEL` and the data-direction
register hold, and change no register. -/
def Obligations.ReadDataRespondsOutput : Prop :=
  (∀ hi stb s, exec (.rdPa hi stb) s = .next { s with responses := s.responses ++ [s.regs.outputA] }) ∧
  (∀ hi stb s, exec (.rdPb hi stb) s = .next { s with responses := s.responses ++ [s.regs.outputB] }) ∧
  (∀ cw d, cw &&& 0x5003 = 0x4000 → ∃ hi stb, decode (BusCycle.ofWord cw d) = .rdPa hi stb) ∧
  (∀ cw d, cw &&& 0x5003 = 0x4002 → ∃ hi stb, decode (BusCycle.ofWord cw d) = .rdPb hi stb)

/-- R101 and R103: `RD_CRA` and `RD_CRB` respond `{00, ControlX[5:0]}` and change no register. That a
control register reads so is the spec's own decision D7 (log entry 13). -/
def Obligations.ReadControlRespondsSixBits : Prop :=
  (∀ hi stb s,
    exec (.rdCra hi stb) s = .next { s with responses := s.responses ++ [0#2 ++ s.regs.controlA] }) ∧
  (∀ hi stb s,
    exec (.rdCrb hi stb) s = .next { s with responses := s.responses ++ [0#2 ++ s.regs.controlB] }) ∧
  (∀ cw d, cw &&& 0x5003 = 0x4001 → ∃ hi stb, decode (BusCycle.ofWord cw d) = .rdCra hi stb) ∧
  (∀ cw d, cw &&& 0x5003 = 0x4003 → ∃ hi stb, decode (BusCycle.ofWord cw d) = .rdCrb hi stb)

/-- R104: `WR_PA` writes all of `d` to `OutputA` if `ControlA[2] = 1`, else to `DataDirA`, and changes
nothing else. That all 8 bits are stored is the spec's own decision D9 (log entry 13). -/
def Obligations.WritePortA : Prop :=
  (∀ hi stb d s, exec (.wrPa hi stb d) s =
    .next (if s.regs.controlA.getLsbD 2 then { s with regs.outputA := d } else { s with regs.dataDirA := d })) ∧
  (∀ cw d, cw &&& 0x5003 = 0x0000 → ∃ hi stb, decode (BusCycle.ofWord cw d) = .wrPa hi stb d)

/-- R105 and R107: `WR_CRA` and `WR_CRB` store `d[5:0]` and change nothing else; `BankOffset` is not
recomputed. -/
def Obligations.WriteControlStoresSixBits : Prop :=
  (∀ hi stb d s, exec (.wrCra hi stb d) s = .next { s with regs.controlA := d.extractLsb' 0 6 }) ∧
  (∀ hi stb d s, exec (.wrCrb hi stb d) s = .next { s with regs.controlB := d.extractLsb' 0 6 }) ∧
  (∀ cw d, cw &&& 0x5003 = 0x0001 → ∃ hi stb, decode (BusCycle.ofWord cw d) = .wrCra hi stb d) ∧
  (∀ cw d, cw &&& 0x5003 = 0x0003 → ∃ hi stb, decode (BusCycle.ofWord cw d) = .wrCrb hi stb d)

/-- R106: `WR_PB` writes `d` to `OutputB` if `ControlB[2] = 1`, else to `DataDirB`, sets `BankOffset` to
the bank function of the two registers as they then are, and changes nothing else. -/
def Obligations.WritePortBRecomputesBank : Prop :=
  (∀ hi stb d s, exec (.wrPb hi stb d) s =
    .next (if s.regs.controlB.getLsbD 2
      then { s with regs := { s.regs with outputB := d, bankOffset := pageBase d s.regs.dataDirB } }
      else { s with regs := { s.regs with dataDirB := d, bankOffset := pageBase s.regs.outputB d } })) ∧
  (∀ cw d, cw &&& 0x5003 = 0x0002 → ∃ hi stb, decode (BusCycle.ofWord cw d) = .wrPb hi stb d)

/-- R140: `RD_FW` responds the firmware byte at `zext_11(A[7:0]) OR BankOffset`, an index inside the image,
and changes no register. -/
def Obligations.ReadFirmwareByte : Prop :=
  (∀ page off s, exec (.rdFw page off) s =
    .next { s with responses :=
      s.responses ++ [fwRead s.params (off.setWidth 11 ||| s.regs.bankOffset).toNat] }) ∧
  (∀ (off : Byte) (s : State), (off.setWidth 11 ||| s.regs.bankOffset).toNat < s.params.fwSize) ∧
  (∀ cw d, cw &&& 0x7000 = 0x5000 →
    ∃ page, decode (BusCycle.ofWord cw d) = .rdFw page (cw.extractLsb' 0 8))

/-- R141: `RD_IOSTB` responds a draw of its own and changes no register. The value is free: the statement
holds whatever `draw` is and whatever the counter holds. That the answer is a fresh draw is the spec's
decision D10; that it takes exactly one is the model's (log entries 3 and 14). -/
def Obligations.ReadStrobeRespondsDraw : Prop :=
  (∀ a s, exec (.rdIostb a) s =
    .next { s with responses := s.responses ++ [draw 8 s.draws], draws := s.draws + 1 }) ∧
  (∀ cw d, cw &&& 0x7000 = 0x7000 → ∃ a, decode (BusCycle.ofWord cw d) = .rdIostb a)

/-- R142 and R143: the writes of the I/O regions have no effect. -/
def Obligations.IoWritesHaveNoEffect : Prop :=
  (∀ a d s, exec (.wrIosel a d) s = .next s) ∧
  (∀ a d s, exec (.wrIostb a d) s = .next s) ∧
  (∀ cw d, cw &&& 0x7000 = 0x1000 → ∃ a, decode (BusCycle.ofWord cw d) = .wrIosel a d) ∧
  (∀ cw d, cw &&& 0x7000 = 0x3000 → ∃ a, decode (BusCycle.ofWord cw d) = .wrIostb a d)

/-! ### What holds of operations together -/

/-- 20_memory.md R61 and 70_reset_and_hazards.md R214: every operation completes; a read changes no
register and gives exactly one response, a write gives none (that a run's observation is one response per
read cycle is the spec's decision D26; log entry 5). -/
def Obligations.ReadsAnswerOnceAndChangeNothing : Prop :=
  ∀ (i : Instr) (s : State), ∃ t, exec i s = .next t ∧
    (i.isRead = true → t.regs = s.regs ∧ ∃ v, t.responses = s.responses ++ [v]) ∧
    (i.isRead = false → t.responses = s.responses ∧ t.draws = s.draws) ∧
    t.params = s.params ∧ t.boot = s.boot ∧ t.arrivals = s.arrivals ∧ t.mouseResets = s.mouseResets

/-- 20_memory.md R62, which the spec derives from R61: a read repeated with nothing between gives the same
byte, but for `RD_IOSTB`. -/
def Obligations.ReadsRepeat : Prop :=
  ∀ (i : Instr) (s t : State), i.isRead = true → i.op ≠ .RD_IOSTB → exec i s = .next t →
    ∃ v u, t.responses = s.responses ++ [v] ∧ exec i t = .next u ∧ u.responses = s.responses ++ [v, v]

/-- The testable property behind 20_memory.md R61 and 41_io_select.md R145: no cycle with `IO = 1` changes
a register, and its response depends on no register but `BankOffset`. -/
def Obligations.IoCyclesNeitherWriteNorReadThePorts : Prop :=
  ∀ (c : BusCycle) (s : State) (r : Registers), c.io = true → r.bankOffset = s.regs.bankOffset →
    ∃ t, exec (decode c) s = .next t ∧ t.regs = s.regs ∧
      exec (decode c) { s with regs := r } = .next { t with regs := r }

/-- 20_memory.md R53 and R54: the four device-select registers repeat at every value of `A[11:2]`, and `STB`
plays no part (the spec's decisions D4, D5 and D6; log entry 12). -/
def Obligations.DeviceSelectIgnoresHighBits : Prop :=
  ∀ (c c' : BusCycle) (s : State), c.io = false → c'.io = false → c.rd = c'.rd → c.d = c'.d →
    c.a.extractLsb' 0 2 = c'.a.extractLsb' 0 2 → exec (decode c) s = exec (decode c') s

/-- 20_memory.md R55: only `A[7:0]` selects a byte of the I/O-select window. -/
def Obligations.WindowIgnoresHighAddressBits : Prop :=
  ∀ (c c' : BusCycle) (s : State), c.io = true → c'.io = true → c.stb = false → c'.stb = false →
    c.rd = c'.rd → c.a.extractLsb' 0 8 = c'.a.extractLsb' 0 8 → exec (decode c) s = exec (decode c') s

/-- 10_state.md R22 and R33: no bit of a control register but `ORSEL` changes what an operation does; only
`RD_CRA` and `RD_CRB` show the others (the spec's decision D8; log entry 13). -/
def Obligations.IdleControlBitsHaveNoEffect : Prop :=
  ∀ (i : Instr) (s t s' : State), SameButIdleControlBits s t → i.op ≠ .RD_CRA → i.op ≠ .RD_CRB →
    exec i s = .next s' → ∃ t', exec i t = .next t' ∧ SameButIdleControlBits s' t'

/-! ### The bank function and the firmware space -/

/-- 10_state.md R25 and R27: `f_bank` in numbers and bit by bit; it takes the eight multiples of `0x100` up
to `0x700` and no other value (the stored width of 11 bits is the spec's decision D13). -/
def Obligations.BankFunction : Prop :=
  (∀ ob db, (fBank ob db).toNat = (ob &&& db &&& 0x0E).toNat * 2 ^ 7) ∧
  (∀ ob db, fBank ob db = pageBase ob db) ∧
  (∀ ob db, ∃ n < 8, (fBank ob db).toNat = n * 0x100) ∧
  (∀ n < 8, ∃ ob db, (fBank ob db).toNat = n * 0x100)

/-- 20_memory.md R57 and R58 (which the spec derives from it): with a page-aligned latch the firmware index is the page number above the
offset, and it lies inside an image of any size R6 allows. -/
def Obligations.FirmwareIndexIsPageAndOffset : Prop :=
  ∀ (s : State) (off : Byte), PageAligned s →
    fwIndex off s.regs.bankOffset = s.regs.bankOffset.extractLsb' 8 3 ++ off ∧
    (fwIndex off s.regs.bankOffset).toNat < s.params.fwSize

/-- The bytes of `FW_IMAGE`: those the parameters list, and a free value elsewhere (the model's choice, log
entry 2). -/
def Obligations.FirmwareImageBytes : Prop :=
  ∀ p : Params, p.wf = true →
    (∀ i v, (i, v) ∈ p.fwImage → fwRead p i = v) ∧
    (∀ i, (∀ v, (i, v) ∉ p.fwImage) → fwRead p i = fwByte i)

/-! ### The step -/

/-- The step serves the cycle that arrives next: it is `exec` of what the cycle decodes to, with the cycle
taken off the arrivals (10_state.md R32; the arrivals are the model's, log entry 4). -/
def Obligations.StepRunsDecodedCycle : Prop :=
  ∀ (s : State) (c : BusCycle) (rest : List Event), s.boot = .looping → s.arrivals = .cycle c :: rest →
    Event.wf s.params (.cycle c) = true → step s = exec (decode c) { s with arrivals := rest }

/-- A word placed for the step is decoded and run by the very next step (log entries 6 and 9). -/
def Obligations.StepRunsPlacedWord : Prop :=
  ∀ (s : State) (cw : CycleWord),
    decodeTableWord 16 cw.toNat = some (decode (BusCycle.ofWord cw 0)) ∧
    ((decode (BusCycle.ofWord cw 0)).wf s.params = true →
      step (s.withFetchWord 16 cw.toNat) = exec (decode (BusCycle.ofWord cw 0)) { s with boot := .looping })

/-- 30_encoding.md R86 and 60_exceptions.md R180: no cycle word stops the loop, and serving one consumes
exactly it; under `DEVSEL_HIGH_BITS = ignore`, the spec's default (D5, log entry 12). -/
def Obligations.NoCycleWordStops : Prop :=
  ∀ (s : State) (cw : CycleWord) (d : Byte) (rest : List Event), s.boot = .looping →
    s.params.devselHighBits = .ignore → s.arrivals = .cycle (BusCycle.ofWord cw d) :: rest →
    ∃ t, step s = .next t ∧ t.arrivals = rest

/-- 40_device_select.md R109: a device-select cycle is served in one step, which does all that its operation
does, its response or its write, and takes exactly that cycle off the arrivals. -/
def Obligations.DeviceSelectCompletesInItsCycle : Prop :=
  ∀ (s : State) (c : BusCycle) (rest : List Event), s.boot = .looping → s.arrivals = .cycle c :: rest →
    c.io = false → s.params.admitsHighBits (c.a.extractLsb' 2 10) = true →
    ∃ t, exec (decode c) { s with arrivals := rest } = .next t ∧ step s = .next t ∧ t.arrivals = rest ∧
      t.responses.length = s.responses.length + (if c.rd then 1 else 0) ∧
      (c.rd = true → t.regs = s.regs)

/-- 60_exceptions.md R180 with 20_memory.md R54 and 42_external_port.md R160: a step stops exactly on the
events the parameters do not admit, and then by a refusal (the policies are the spec's decisions D5 and D18;
log entry 18). -/
def Obligations.RefusesExactlyWhatIsNotAdmitted : Prop :=
  ∀ (s : State) (e : Event) (rest : List Event), s.boot = .looping → s.arrivals = e :: rest →
    (Event.wf s.params e = true → ∃ t, step s = .next t) ∧
    (Event.wf s.params e = false → ∃ r, step s = .refused r)

/-- 20_memory.md R54 and 42_external_port.md R160, R161, by the names of the refusals: `A[3:2] != 0` on a
device-select cycle under `refuse`, a mask outside `EXT_MASK_A` or `EXT_MASK_B` (D5 and D18; log entry 18). -/
def Obligations.RefusalsByName : Prop :=
  (∀ (s : State) (c : BusCycle) (rest : List Event), s.boot = .looping → s.arrivals = .cycle c :: rest →
    s.params.devselHighBits = .refuse → c.io = false → c.a.extractLsb' 2 2 ≠ 0 →
    step s = .refused .devselHighBits) ∧
  (∀ (s : State) (m v : Byte) (rest : List Event), s.boot = .looping → s.arrivals = .ext .a m v :: rest →
    m &&& ~~~s.params.extMaskA ≠ 0 → step s = .refused (.extMask .a)) ∧
  (∀ (s : State) (m v : Byte) (rest : List Event), s.boot = .looping → s.arrivals = .ext .b m v :: rest →
    m &&& ~~~s.params.extMaskB ≠ 0 → step s = .refused (.extMask .b))

/-- While no event has arrived the loop goes on and nothing changes (the model's choice, log entry 4). -/
def Obligations.IdleLoopChangesNothing : Prop :=
  ∀ s : State, s.boot = .looping → s.arrivals = [] → step s = .next s

/-- 70_reset_and_hazards.md R207: the boot order. Unless a mutation of the external agent comes first, each
step before the loop is the next boot step, with no register changed and no cycle or reset served, whatever
has arrived (the order is the spec's decision D27; who goes first is left open, log entry 6). -/
def Obligations.BootOrder : Prop :=
  ∀ s : State, (∀ port m v rest, s.arrivals ≠ .ext port m v :: rest) ∨ s.bootFirst.head? = some true →
    (s.boot = .poweredOn →
      step s = .next { s with boot := .producerInitialised, bootFirst := s.bootFirst.tail }) ∧
    (s.boot = .producerInitialised →
      step s = .next { s with boot := .callbackRegistered, bootFirst := s.bootFirst.tail }) ∧
    (s.boot = .callbackRegistered → step s = .next { s with boot := .looping, bootFirst := s.bootFirst.tail })

/-- 10_state.md R35 and 70_reset_and_hazards.md R200: at power-on every register is 0 and page 0 is
selected (the spec's own decision D14; log entry 11). -/
def Obligations.PowerOnValues : Prop :=
  State.reset.observe = ⟨0, 0, 0, 0, 0, 0, 0⟩ ∧ State.reset.boot = .poweredOn

/-! ### The external agent -/

/-- R160: `EXT_WR_A` replaces exactly the bits of `OutputA` in its mask and changes nothing else (the form
of the mutation is the spec's decision D18; log entry 16). -/
def Obligations.ExternalWriteA : Prop :=
  ∀ (s : State) (m v : Byte) (rest : List Event), s.boot = .looping → s.arrivals = .ext .a m v :: rest →
    m &&& ~~~s.params.extMaskA = 0 →
    ∃ o : Byte, (∀ k, o.getLsbD k = if m.getLsbD k then v.getLsbD k else s.regs.outputA.getLsbD k) ∧
      step s = .next { s with arrivals := rest, regs.outputA := o }

/-- R161: `EXT_WR_B` replaces exactly the bits of `OutputB` in its mask, sets `BankOffset` to the bank
function of the new `OutputB`, and changes nothing else (D18; log entry 16). -/
def Obligations.ExternalWriteB : Prop :=
  ∀ (s : State) (m v : Byte) (rest : List Event), s.boot = .looping → s.arrivals = .ext .b m v :: rest →
    m &&& ~~~s.params.extMaskB = 0 →
    ∃ o : Byte, (∀ k, o.getLsbD k = if m.getLsbD k then v.getLsbD k else s.regs.outputB.getLsbD k) ∧
      step s = .next { s with arrivals := rest
                              regs := { s.regs with outputB := o, bankOffset := pageBase o s.regs.dataDirB } }

/-- A corner case of R160 and R161: repeating an external event leaves the same state. -/
def Obligations.ExternalWriteRepeats : Prop :=
  ∀ (s t : State) (port : Port) (m v : Byte) (rest : List Event), s.boot = .looping →
    s.arrivals = .ext port m v :: .ext port m v :: rest → step s = .next t →
    step t = .next { t with arrivals := rest }

/-- A corner case of R161: with `(EXT_MASK_B AND 0x0E) = 0` no external event changes `BankOffset`. It needs
the latch to be consistent, which R203 does not promise after a reset under `keep` or `any` (log entry 16). -/
def Obligations.ExternalCannotMoveBank : Prop :=
  ∀ (s t : State) (port : Port) (m v : Byte) (rest : List Event), s.boot = .looping →
    s.arrivals = .ext port m v :: rest → s.params.extMaskB &&& 0x0E = 0 → LatchConsistent s →
    step s = .next t → t.regs.bankOffset = s.regs.bankOffset

/-- 42_external_port.md R160 and R161 before the loop runs, where R207 holds nothing of the external agent
back: a mutation that comes before the next boot step is served as it is later on, or refused for its mask;
one that comes after it waits for that step (R163 leaves the order open; log entry 6). -/
def Obligations.ExternalWriteWhileBooting : Prop :=
  ∀ (s : State) (port : Port) (m v : Byte) (rest : List Event), s.boot ≠ .looping →
    s.arrivals = .ext port m v :: rest →
    (s.bootFirst.head? = some true →
      step s = .next { s with boot := s.boot.next, bootFirst := s.bootFirst.tail }) ∧
    (s.bootFirst.head? ≠ some true → s.params.admitsMask port m = true →
      ∃ o : Byte, (∀ k, o.getLsbD k = if m.getLsbD k then v.getLsbD k else (s.regs.output port).getLsbD k) ∧
        step s = .next { s with
          arrivals := rest
          bootFirst := s.bootFirst.tail
          regs := match port with
            | .a => { s.regs with outputA := o }
            | .b => { s.regs with outputB := o, bankOffset := pageBase o s.regs.dataDirB } }) ∧
    (s.bootFirst.head? ≠ some true → s.params.admitsMask port m = false → step s = .refused (.extMask port))

/-- 42_external_port.md R163: external events may occur between any two steps, any number of times. Before
each boot step there is room for any list of admitted mutations: under the schedule that gives them their
turns they are all served in that phase, and the step after them is the boot step (log entry 6). -/
def Obligations.MutationsBetweenBootSteps : Prop :=
  ∀ (s : State) (mutations rest : List Event) (later : List Bool), s.boot ≠ .looping →
    mutations.all (fun e => isMutation e && Event.wf s.params e) = true → s.arrivals = mutations ++ rest →
    s.bootFirst = mutations.map (fun _ => false) ++ true :: later →
    ∃ t, core.run mutations.length s = .next t ∧ t.boot = s.boot ∧ t.arrivals = rest ∧
      step t = .next { t with boot := t.boot.next, bootFirst := later }

/-! ### Reset -/

/-- R201 and 10_state.md R36: `RESET_ASSERT` under each policy; `BankOffset` is 0 under all of them, and the
Mouse State Producer is signalled once (the policies are the spec's decision D15; log entries 8 and 15). The
six values under `any` are free. -/
def Obligations.ResetAssertByPolicy : Prop :=
  ∀ (s : State) (rest : List Event), s.boot = .looping → s.arrivals = .reset true :: rest →
    ∃ r n, step s = .next { s with arrivals := rest, regs := r, draws := n, mouseResets := s.mouseResets + 1 } ∧
      r.bankOffset = 0 ∧
      (s.params.regResetPolicy = .zero → r = ⟨0, 0, 0, 0, 0, 0, 0⟩ ∧ n = s.draws) ∧
      (s.params.regResetPolicy = .keep → r = { s.regs with bankOffset := 0 } ∧ n = s.draws) ∧
      (s.params.regResetPolicy = .any →
        r = ⟨draw 6 s.draws, draw 6 (s.draws + 1), draw 8 (s.draws + 2), draw 8 (s.draws + 3),
          draw 8 (s.draws + 4), draw 8 (s.draws + 5), 0⟩ ∧ n = s.draws + 6)

/-- R202: `RESET_DEASSERT` changes nothing (the spec's decision D16; log entry 15). -/
def Obligations.ResetDeassertChangesNothing : Prop :=
  ∀ (s : State) (rest : List Event), s.boot = .looping → s.arrivals = .reset false :: rest →
    step s = .next { s with arrivals := rest }

/-- 60_exceptions.md R186: under `zero` and `keep` a repeated reset finds the registers as it leaves them
(D16; log entry 15). -/
def Obligations.ResetIsIdempotent : Prop :=
  ∀ (s t : State) (rest : List Event), s.boot = .looping → s.params.regResetPolicy ≠ .any →
    s.arrivals = .reset true :: .reset true :: rest → step s = .next t →
    step t = .next { t with arrivals := rest, mouseResets := t.mouseResets + 1 }

/-- R204: a reset inside a `WR_PB` leaves one of exactly three values in `BankOffset`, each of them possible,
and the registers a reset leaves after the register write (the spec's decision D17; log entry 7). -/
def Obligations.ResetInsideWritePortB : Prop :=
  ∀ (s : State) (hi : HighBits) (stb : Bool) (d : Byte) (outcome : RaceOutcome) (rest : List Event) (ob db : Byte),
    s.boot = .looping → s.arrivals = .wrPbRace hi stb d outcome :: rest → s.params.admitsHighBits hi = true →
    ob = (if s.regs.controlB.getLsbD 2 then d else s.regs.outputB) →
    db = (if s.regs.controlB.getLsbD 2 then s.regs.dataDirB else d) →
    ∃ t, step s = .next t ∧
      t = { s with arrivals := rest, regs := t.regs, draws := t.draws, mouseResets := s.mouseResets + 1 } ∧
      (outcome = .resetLast → t.regs.bankOffset = 0) ∧
      (outcome = .decoderStale → t.regs.bankOffset = pageBase ob db) ∧
      (outcome = .decoderFresh → t.regs.bankOffset = pageBase t.regs.outputB t.regs.dataDirB) ∧
      (s.params.regResetPolicy = .zero →
        t.regs = ⟨0, 0, 0, 0, 0, 0, t.regs.bankOffset⟩ ∧
        (t.regs.bankOffset = 0 ∨ t.regs.bankOffset = pageBase ob db)) ∧
      (s.params.regResetPolicy = .keep →
        t.regs = { s.regs with outputB := ob, dataDirB := db, bankOffset := t.regs.bankOffset }) ∧
      (s.params.regResetPolicy = .any →
        t.regs = ⟨draw 6 s.draws, draw 6 (s.draws + 1), draw 8 (s.draws + 2), draw 8 (s.draws + 3),
          draw 8 (s.draws + 4), draw 8 (s.draws + 5), t.regs.bankOffset⟩ ∧ t.draws = s.draws + 6) ∧
      (s.params.regResetPolicy ≠ .any → t.draws = s.draws)

/-- R203 and R205: the first firmware read after a reset is from page 0, under every policy. -/
def Obligations.WindowShowsPageZeroAfterReset : Prop :=
  ∀ (s : State) (c : BusCycle) (page : BitVec 4) (off : Byte) (rest : List Event), s.boot = .looping →
    decode c = .rdFw page off → s.arrivals = .reset true :: .cycle c :: rest →
    ∃ t, core.run 2 s = .next t ∧ t.responses = s.responses ++ [fwRead s.params off.toNat]

/-- R203 with R106 and R161: a write of port B by the host, and one by the external agent, leave the latch
consistent from any state. -/
def Obligations.PortBWritesRestoreTheLatch : Prop :=
  (∀ hi stb d s, ∃ t, exec (.wrPb hi stb d) s = .next t ∧ LatchConsistent t) ∧
  (∀ (s t : State) (m v : Byte) (rest : List Event), s.boot = .looping → s.arrivals = .ext .b m v :: rest →
    step s = .next t → LatchConsistent t)

/-! ### Visibility -/

/-- 40_device_select.md R106 with 20_memory.md R65: the firmware read right after a `WR_PB` uses the new
bank, with no lag. -/
def Obligations.BankChangeSeenByNextFirmwareRead : Prop :=
  ∀ (s : State) (w c : BusCycle) (hi : HighBits) (stb : Bool) (d : Byte) (page : BitVec 4) (off : Byte)
    (rest : List Event), s.boot = .looping → s.arrivals = .cycle w :: .cycle c :: rest →
    Event.wf s.params (.cycle w) = true → decode w = .wrPb hi stb d → decode c = .rdFw page off →
    ∃ t, core.run 2 s = .next t ∧ t.responses = s.responses ++
      [fwRead s.params ((if s.regs.controlB.getLsbD 2 then (d &&& s.regs.dataDirB) else (s.regs.outputB &&& d)).extractLsb' 1 3
        ++ off).toNat]

/-- 42_external_port.md R162: an external write is seen whole by the host read that follows it. -/
def Obligations.ExternalWriteSeenByNextRead : Prop :=
  ∀ (s : State) (c : BusCycle) (hi : HighBits) (stb : Bool) (m v : Byte) (rest : List Event),
    s.boot = .looping → Event.wf s.params (.cycle c) = true →
    (s.arrivals = .ext .a m v :: .cycle c :: rest → m &&& ~~~s.params.extMaskA = 0 → decode c = .rdPa hi stb →
      ∃ t, core.run 2 s = .next t ∧
        t.responses = s.responses ++ [(s.regs.outputA &&& ~~~m) ||| (v &&& m)]) ∧
    (s.arrivals = .ext .b m v :: .cycle c :: rest → m &&& ~~~s.params.extMaskB = 0 → decode c = .rdPb hi stb →
      ∃ t, core.run 2 s = .next t ∧
        t.responses = s.responses ++ [(s.regs.outputB &&& ~~~m) ||| (v &&& m)])

/-- 42_external_port.md R164 and the round trip of the source's section 8: what `WR_PA` writes to `DataDirA` is
what the observation port shows, and the port shows every field (the spec's decision D25; log entry 5). -/
def Obligations.ObservationPortShowsDataDirA : Prop :=
  ∀ hi stb d s, s.regs.controlA.getLsbD 2 = false →
    ∃ t, exec (.wrPa hi stb d) s = .next t ∧
      t.observe = ⟨s.regs.controlA, s.regs.controlB, d, s.regs.dataDirB, s.regs.outputA, s.regs.outputB,
        s.regs.bankOffset⟩

/-! ### Pseudo-operations -/

/-- 30_encoding.md R90: `SELBANK n` selects page `n` from any state (the syntax is the spec's decision D24). -/
def Obligations.SelectBank : Prop :=
  ∀ (s : State) (hi : HighBits) (n : BitVec 3) (rest : List Event), s.boot = .looping →
    s.params.admitsHighBits hi = true → s.arrivals = (selBank hi n).map lineEvent ++ rest →
    core.run 4 s = .next { s with
      arrivals := rest
      regs := { s.regs with controlB := 0x04, dataDirB := 0x0E, outputB := 0#4 ++ n ++ 0#1, bankOffset := n ++ 0#8 } }

/-- 30_encoding.md R90: `SETDDR` and `SETOR` on either port; on port B each also recomputes `BankOffset`. -/
def Obligations.SetDataDirectionAndOutput : Prop :=
  ∀ (s : State) (hi : HighBits) (v : Byte) (rest : List Event), s.boot = .looping →
    s.params.admitsHighBits hi = true →
    (s.arrivals = (setDdr hi .a v).map lineEvent ++ rest →
      core.run 2 s = .next { s with arrivals := rest, regs := { s.regs with controlA := 0x00, dataDirA := v } }) ∧
    (s.arrivals = (setOr hi .a v).map lineEvent ++ rest →
      core.run 2 s = .next { s with arrivals := rest, regs := { s.regs with controlA := 0x04, outputA := v } }) ∧
    (s.arrivals = (setDdr hi .b v).map lineEvent ++ rest →
      core.run 2 s = .next { s with arrivals := rest, regs := { s.regs with
        controlB := 0x00, dataDirB := v, bankOffset := pageBase s.regs.outputB v } }) ∧
    (s.arrivals = (setOr hi .b v).map lineEvent ++ rest →
      core.run 2 s = .next { s with arrivals := rest, regs := { s.regs with
        controlB := 0x04, outputB := v, bankOffset := pageBase v s.regs.dataDirB } })

/-! ### Invariants and whole-machine rules -/

/-- 10_state.md R27 (which the spec derives from R25): every step keeps `BankOffset` page-aligned, under every
policy and through every reset and race. -/
def Obligations.PageAlignedKept : Prop :=
  ∀ s t : State, PageAligned s → step s = .next t → PageAligned t

/-- `BankOffset` is page-aligned at power-on (D14; log entry 11). -/
def Obligations.PageAlignedAtReset : Prop := PageAligned State.reset

/-- 10_state.md R26 (a consequence the spec derives): outside the reset cases of R203 and R204 every step keeps
`BankOffset = f_bank(OutputB, DataDirB)`. -/
def Obligations.LatchConsistentKept : Prop :=
  ∀ s t : State, LatchConsistent s ∧ NoStaleReset s → step s = .next t → LatchConsistent t ∧ NoStaleReset t

/-- The latch is consistent at power-on, and no reset case lies ahead (D14 and the default policy, D15; log
entries 1 and 11). -/
def Obligations.LatchConsistentAtReset : Prop := LatchConsistent State.reset ∧ NoStaleReset State.reset

/-- 10_state.md R29: no step writes `FW_IMAGE`. That no step changes any other parameter of R6 either is the
model's choice (log entry 1, DESIGN CHOICE); R29 speaks of `FW_IMAGE` alone. -/
def Obligations.FirmwareImageNeverWritten : Prop :=
  ∀ s t : State, step s = .next t →
    t.params = s.params ∧ ∀ i, fwRead t.params i = fwRead s.params i

/-- The 'written by' column of the table of 10_state.md R30: a step changes a field only by serving an event
that the table lists as a writer of it; before the loop runs, only one of the external agent's (R207, R163). -/
def Obligations.OnlyListedWritersChangeAField : Prop :=
  ∀ (f : Field) (s t : State), step s = .next t → f.agrees s.regs t.regs ∨
    ∃ e rest, (s.boot = .looping ∨ isMutation e = true) ∧ s.arrivals = e :: rest ∧ f.writtenBy s.regs e = true

/-- 10_state.md R37 (derived there): the host never sees `DataDirA`. Two machines that differ only in it run
alike, step for step, and give the same responses. -/
def Obligations.HostNeverSeesDataDirA : Prop :=
  ∀ (k : Nat) (s t s' : State), SameButDataDirA s t → core.run k s = .next s' →
    ∃ t', core.run k t = .next t' ∧ SameButDataDirA s' t' ∧ t'.responses = s'.responses

/-- 60_exceptions.md R180 and R191: a machine whose arrivals the parameters admit never stops. -/
def Obligations.AdmittedRunNeverStops : Prop :=
  ∀ s : State, Admitted s → NeverStops s

/-- 70_reset_and_hazards.md R212 and R214: a run serves every event exactly once, in one step each, and gives
one response per read cycle (that every cycle is served is the spec's decision D21; log entry 17). -/
def Obligations.RunServesEveryEventOnce : Prop :=
  ∀ s : State, s.boot = .looping → Admitted s →
    ∃ t, core.run s.arrivals.length s = .next t ∧ t.arrivals = [] ∧
      t.responses.length = s.responses.length + (s.arrivals.filter isReadCycle).length
end

