-- ==== Sys2Proof/Laws/Decode.lean ====
section
/-! SUPPORT. The cycle word and the fields of a cycle, and what the decoder answers by region. -/

namespace Sys2Proof

@[simp] theorem BusCycle.ofWord_d (cw : CycleWord) (d : Byte) : (BusCycle.ofWord cw d).d = d := rfl

@[simp] theorem BusCycle.ofWord_rd (cw : CycleWord) (d : Byte) : (BusCycle.ofWord cw d).rd = cw.getLsbD 14 := rfl

@[simp] theorem BusCycle.ofWord_stb (cw : CycleWord) (d : Byte) : (BusCycle.ofWord cw d).stb = cw.getLsbD 13 := rfl

@[simp] theorem BusCycle.ofWord_io (cw : CycleWord) (d : Byte) : (BusCycle.ofWord cw d).io = cw.getLsbD 12 := rfl

@[simp] theorem BusCycle.ofWord_a (cw : CycleWord) (d : Byte) :
    (BusCycle.ofWord cw d).a = cw.extractLsb' 0 12 := rfl

/-- A bit of the cycle word (30_encoding.md R80). -/
theorem BusCycle.word_bit (c : BusCycle) (k : Nat) : c.word.getLsbD k =
    if k < 12 then c.a.getLsbD k else if k = 12 then c.io else if k = 13 then c.stb else decide (k = 14) && c.rd := by
  unfold BusCycle.word
  simp only [BitVec.getLsbD_append, BitVec.getLsbD_ofBool]
  by_cases h : k < 12
  · simp [h]
  · obtain rfl | rfl | rfl | h15 : k = 12 ∨ k = 13 ∨ k = 14 ∨ 15 ≤ k := by omega
    · simp
    · simp
    · simp
    · simp [h, show k ≠ 12 by omega, show k ≠ 13 by omega, show k ≠ 14 by omega, show ¬k - 12 < 1 by omega,
        show ¬k - 12 - 1 < 1 by omega, show k - 12 - 1 - 1 ≠ 0 by omega]

/-- A cycle is its word and its data byte. -/
theorem BusCycle.ofWord_word (c : BusCycle) : BusCycle.ofWord c.word c.d = c := by
  have ha : c.word.extractLsb' 0 12 = c.a := by
    apply BitVec.eq_of_getLsbD_eq
    intro k hk
    simp [hk, BusCycle.word_bit]
  have h12 := c.word_bit 12
  have h13 := c.word_bit 13
  have h14 := c.word_bit 14
  simp at h12 h13 h14
  cases c
  simp_all [BusCycle.ofWord]

/-- A cycle word is read back whole. -/
theorem BusCycle.word_ofWord (cw : CycleWord) (d : Byte) : (BusCycle.ofWord cw d).word = cw := by
  apply BitVec.eq_of_getLsbD_eq
  intro k hk
  rw [BusCycle.word_bit]
  by_cases h : k < 12
  · simp [h]
  · obtain rfl | rfl | rfl : k = 12 ∨ k = 13 ∨ k = 14 := by omega
    all_goals simp

/-! ### The decoder by region (30_encoding.md R83) -/

theorem decode_deviceRead {c : BusCycle} (hr : c.rd = true) (hi : c.io = false) : decode c = decodeDeviceRead c := by
  simp [decode, hr, hi]

theorem decode_deviceWrite {c : BusCycle} (hr : c.rd = false) (hi : c.io = false) :
    decode c = decodeDeviceWrite c := by
  simp [decode, hr, hi]

theorem decode_fwRead {c : BusCycle} (hr : c.rd = true) (hi : c.io = true) (hs : c.stb = false) :
    decode c = .rdFw (c.a.extractLsb' 8 4) (c.a.extractLsb' 0 8) := by
  simp [decode, hr, hi, hs]

theorem decode_strobeRead {c : BusCycle} (hr : c.rd = true) (hi : c.io = true) (hs : c.stb = true) :
    decode c = .rdIostb c.a := by
  simp [decode, hr, hi, hs]

theorem decode_windowWrite {c : BusCycle} (hr : c.rd = false) (hi : c.io = true) (hs : c.stb = false) :
    decode c = .wrIosel c.a c.d := by
  simp [decode, hr, hi, hs]

theorem decode_strobeWrite {c : BusCycle} (hr : c.rd = false) (hi : c.io = true) (hs : c.stb = true) :
    decode c = .wrIostb c.a c.d := by
  simp [decode, hr, hi, hs]

/-! ### The address of a device-select cycle -/

/-- A bit of `{hi, reg}`. -/
theorem bit_append (hi : HighBits) (reg : BitVec 2) (k : Nat) :
    (hi ++ reg : Addr).getLsbD k = if k < 2 then reg.getLsbD k else hi.getLsbD (k - 2) :=
  BitVec.getLsbD_append

/-- The high bits of `{hi, reg}`. -/
theorem extract_high_append (hi : HighBits) (reg : BitVec 2) : (hi ++ reg : Addr).extractLsb' 2 10 = hi := by
  apply BitVec.eq_of_getLsbD_eq
  intro k hk
  rw [BitVec.getLsbD_extractLsb', bit_append]
  simp [hk, show ¬2 + k < 2 by omega]

/-- `{A[11:2], A[1:0]}` is `A`. -/
theorem append_extract (a : Addr) : (a.extractLsb' 2 10 ++ a.extractLsb' 0 2 : Addr) = a := by
  apply BitVec.eq_of_getLsbD_eq
  intro k hk
  rw [bit_append]
  by_cases h : k < 2
  · simp [h]
  · simp [h, show k - 2 < 10 by omega, show 2 + (k - 2) = k by omega]

end Sys2Proof
end

