-- ==== Sys2Proof/Laws/Image.lean ====
section
/-! SUPPORT. The firmware image as a list of cells: its one operation is a read (20_memory.md R61). -/

namespace Sys2Proof.Machine

open Config

/-- What the canonical form says of a list with a first cell. -/
theorem Memory.wf_cons (size i : Nat) (v : Byte) (rest : Memory) :
    Config.Memory.wf size ((i, v) :: rest) = true ↔
      i < size ∧ v ≠ fwByte i ∧ (∀ cell ∈ rest, i < cell.1) ∧ Config.Memory.wf size rest = true := by
  simp [Config.Memory.wf, and_assoc]

/-- A read finds only listed cells. -/
theorem mem_of_memRead {m : Memory} {i : Nat} {v : Byte} (h : memRead m i = some v) : (i, v) ∈ m := by
  induction m with
  | nil => cases h
  | cons cell rest ih =>
    obtain ⟨j, w⟩ := cell
    by_cases hj : j = i
    · simp_all [memRead]
    · exact List.mem_cons_of_mem _ (ih (by simpa [memRead, hj] using h))

/-- In a canonical image a listed cell is the one that is read. -/
theorem memRead_of_mem {size : Nat} {m : Memory} {i : Nat} {v : Byte} (hm : Config.Memory.wf size m = true)
    (h : (i, v) ∈ m) : memRead m i = some v := by
  induction m with
  | nil => cases h
  | cons cell rest ih =>
    obtain ⟨j, w⟩ := cell
    obtain ⟨-, -, hlt, hrest⟩ := (Memory.wf_cons size j w rest).1 hm
    rcases List.mem_cons.1 h with h | h
    · simp_all [memRead]
    · have : j ≠ i := Nat.ne_of_lt (hlt _ h)
      simp [memRead, this, ih hrest h]

/-- The parameters at power-on are as R6 asks. -/
theorem reset_params_wf : State.reset.params.wf = true := by decide

/-- Every index of a page lies inside the image (20_memory.md R58). -/
theorem bank_lt_fwSize (p : Params) (b : Bank) : b.toNat < p.fwSize :=
  calc b.toNat < 2 ^ 11 := b.isLt
    _ ≤ 2 ^ (11 + p.fwDoublings) := Nat.pow_le_pow_right (by decide) (by omega)

end Sys2Proof.Machine
end

