-- ==== Sys2Proof/Laws/PerInstr.lean ====
section
/-! SUPPORT. Statements about every instruction as syntax, one lemma per constructor. -/

namespace Sys2Proof.Laws.EncodedFields

/-- The encoding of an instruction has the region, the direction and the register number of its row of
30_encoding.md R84. -/
def Statement (i : Instr) : Prop :=
  (encode i).rd = i.isRead ∧
  match i.op with
  | .RD_PA | .WR_PA => (encode i).io = false ∧ (encode i).a.getLsbD 1 = false ∧ (encode i).a.getLsbD 0 = false
  | .RD_CRA | .WR_CRA => (encode i).io = false ∧ (encode i).a.getLsbD 1 = false ∧ (encode i).a.getLsbD 0 = true
  | .RD_PB | .WR_PB => (encode i).io = false ∧ (encode i).a.getLsbD 1 = true ∧ (encode i).a.getLsbD 0 = false
  | .RD_CRB | .WR_CRB => (encode i).io = false ∧ (encode i).a.getLsbD 1 = true ∧ (encode i).a.getLsbD 0 = true
  | .RD_FW | .WR_IOSEL => (encode i).io = true ∧ (encode i).stb = false
  | .RD_IOSTB | .WR_IOSTB => (encode i).io = true ∧ (encode i).stb = true

/-- The two register bits of a device-select address. -/
theorem deviceCycle_reg (rd : Bool) (hi : HighBits) (reg : BitVec 2) (stb : Bool) (d : Byte) :
    (deviceCycle rd hi reg stb d).a.getLsbD 1 = reg.getLsbD 1 ∧
      (deviceCycle rd hi reg stb d).a.getLsbD 0 = reg.getLsbD 0 :=
  ⟨bit_append hi reg 1, bit_append hi reg 0⟩

theorem rdPa (hi : HighBits) (stb : Bool) : Statement (.rdPa hi stb) := ⟨rfl, rfl, deviceCycle_reg _ _ 0 _ _⟩
theorem rdCra (hi : HighBits) (stb : Bool) : Statement (.rdCra hi stb) := ⟨rfl, rfl, deviceCycle_reg _ _ 1 _ _⟩
theorem rdPb (hi : HighBits) (stb : Bool) : Statement (.rdPb hi stb) := ⟨rfl, rfl, deviceCycle_reg _ _ 2 _ _⟩
theorem rdCrb (hi : HighBits) (stb : Bool) : Statement (.rdCrb hi stb) := ⟨rfl, rfl, deviceCycle_reg _ _ 3 _ _⟩
theorem wrPa (hi : HighBits) (stb : Bool) (d : Byte) : Statement (.wrPa hi stb d) := ⟨rfl, rfl, deviceCycle_reg _ _ 0 _ _⟩
theorem wrCra (hi : HighBits) (stb : Bool) (d : Byte) : Statement (.wrCra hi stb d) := ⟨rfl, rfl, deviceCycle_reg _ _ 1 _ _⟩
theorem wrPb (hi : HighBits) (stb : Bool) (d : Byte) : Statement (.wrPb hi stb d) := ⟨rfl, rfl, deviceCycle_reg _ _ 2 _ _⟩
theorem wrCrb (hi : HighBits) (stb : Bool) (d : Byte) : Statement (.wrCrb hi stb d) := ⟨rfl, rfl, deviceCycle_reg _ _ 3 _ _⟩
theorem rdFw (page : BitVec 4) (off : Byte) : Statement (.rdFw page off) := ⟨rfl, rfl, rfl⟩
theorem rdIostb (a : Addr) : Statement (.rdIostb a) := ⟨rfl, rfl, rfl⟩
theorem wrIosel (a : Addr) (d : Byte) : Statement (.wrIosel a d) := ⟨rfl, rfl, rfl⟩
theorem wrIostb (a : Addr) (d : Byte) : Statement (.wrIostb a d) := ⟨rfl, rfl, rfl⟩

end Sys2Proof.Laws.EncodedFields
end

