-- ==== Sys2Proof/Laws/Registers.lean ====
section
/-! SUPPORT. The registers by port, the operand assembly, and what each shared operation on the registers
does. -/

namespace Sys2Proof.Machine

open Config

/-! ### Reading a register after a write -/

@[simp] theorem Registers.control_setControl (p : Port) (c : Ctrl) (r : Registers) :
    (r.setControl p c).control p = c := by cases p <;> rfl

@[simp] theorem Registers.output_setOutput (p : Port) (v : Byte) (r : Registers) :
    (r.setOutput p v).output p = v := by cases p <;> rfl

@[simp] theorem Registers.dataDir_setDataDir (p : Port) (v : Byte) (r : Registers) :
    (r.setDataDir p v).dataDir p = v := by cases p <;> rfl

@[simp] theorem Registers.control_setOutput (p q : Port) (v : Byte) (r : Registers) :
    (r.setOutput p v).control q = r.control q := by cases p <;> cases q <;> rfl

@[simp] theorem Registers.control_setDataDir (p q : Port) (v : Byte) (r : Registers) :
    (r.setDataDir p v).control q = r.control q := by cases p <;> cases q <;> rfl

@[simp] theorem Registers.dataDir_setOutput (p q : Port) (v : Byte) (r : Registers) :
    (r.setOutput p v).dataDir q = r.dataDir q := by cases p <;> cases q <;> rfl

@[simp] theorem Registers.output_setDataDir (p q : Port) (v : Byte) (r : Registers) :
    (r.setDataDir p v).output q = r.output q := by cases p <;> cases q <;> rfl

@[simp] theorem Registers.bankOffset_setControl (p : Port) (c : Ctrl) (r : Registers) :
    (r.setControl p c).bankOffset = r.bankOffset := by cases p <;> rfl

@[simp] theorem Registers.bankOffset_recompute (r : Registers) :
    r.recompute.bankOffset = fBank r.outputB r.dataDirB := rfl

@[simp] theorem Registers.outputB_recompute (r : Registers) : r.recompute.outputB = r.outputB := rfl

@[simp] theorem Registers.dataDirB_recompute (r : Registers) : r.recompute.dataDirB = r.dataDirB := rfl

/-! ### One specification per shared operation -/

/-- A data write reaches the output register if `ORSEL`, else the data-direction register. -/
theorem Registers.storeData_eq (p : Port) (d : Byte) (r : Registers) :
    (orsel (r.control p) = true ∧ r.storeData p d = r.setOutput p d) ∨
      (orsel (r.control p) = false ∧ r.storeData p d = r.setDataDir p d) := by
  cases h : orsel (r.control p) <;> simp [Registers.storeData, h]

/-- A data write never touches a control register (10_state.md R30). -/
theorem Registers.control_storeData (p q : Port) (d : Byte) (r : Registers) :
    (r.storeData p d).control q = r.control q := by
  obtain ⟨-, h⟩ | ⟨-, h⟩ := r.storeData_eq p d <;> simp [h]

/-- A settled write of port B leaves the latch consistent (10_state.md R26). -/
theorem Registers.bankOffset_settle_b (r : Registers) :
    (r.settle .b).bankOffset = fBank (r.settle .b).outputB (r.settle .b).dataDirB := rfl

/-- A host reset selects page 0 under every policy (70_reset_and_hazards.md R201). -/
@[simp] theorem Registers.bankOffset_hostReset (policy : RegResetPolicy) (n : Nat) (r : Registers) :
    (r.hostReset policy n).bankOffset = 0 := by cases policy <;> rfl

/-- A masked write, bit by bit. -/
theorem maskedWrite_bit (old m v : Byte) (k : Nat) :
    (maskedWrite old m v).getLsbD k = if m.getLsbD k then v.getLsbD k else old.getLsbD k := by
  have h : (maskedWrite old m v).getLsbD k =
      ((old.getLsbD k && (decide (k < 8) && !m.getLsbD k)) || (v.getLsbD k && m.getLsbD k)) := by
    simp only [maskedWrite, BitVec.getLsbD_or, BitVec.getLsbD_and, BitVec.getLsbD_not]
  rw [h]
  by_cases hk : k < 8
  · cases m.getLsbD k <;> simp [hk]
  · simp [BitVec.getLsbD_of_ge old k (Nat.le_of_not_lt hk), BitVec.getLsbD_of_ge m k (Nat.le_of_not_lt hk)]

/-- A masked write with an empty mask changes nothing. -/
theorem maskedWrite_empty (old v : Byte) : maskedWrite old 0 v = old := by
  apply BitVec.eq_of_getLsbD_eq
  intro k _
  rw [maskedWrite_bit]
  simp

/-- The bits of the bank function (10_state.md R25): bits 10:8 are `(ob AND db)[3:1]`, the others 0. -/
theorem fBank_bit (ob db : Byte) (k : Nat) :
    (fBank ob db).getLsbD k = (decide (8 ≤ k ∧ k < 11) && (ob.getLsbD (k - 7) && db.getLsbD (k - 7))) := by
  have hmask : ∀ j < 11, 7 ≤ j → (0x0E#8).getLsbD (j - 7) = decide (8 ≤ j) := by decide
  have h : (fBank ob db).getLsbD k = (decide (k < 11) && !decide (k < 7) &&
      (decide (k - 7 < 11) && (ob.getLsbD (k - 7) && db.getLsbD (k - 7) && (0x0E#8).getLsbD (k - 7)))) := by
    simp only [fBank, BitVec.getLsbD_shiftLeft, BitVec.getLsbD_setWidth, BitVec.getLsbD_and]
    rfl
  rw [h]
  by_cases hk : k < 11 ∧ 7 ≤ k
  · rw [hmask k hk.1 hk.2]
    by_cases h8 : 8 ≤ k <;> simp [h8, hk.1, show ¬k < 7 by omega, show k - 7 < 11 by omega]
  · have : ¬(8 ≤ k ∧ k < 11) := by omega
    by_cases h11 : k < 11
    · simp [this, show k < 7 by omega]
    · simp [h11]

/-- The power-on registers select page 0 (10_state.md R35). -/
@[simp] theorem fBank_zero : fBank 0 0 = 0 := by decide

end Sys2Proof.Machine
end

