-- ==== Sys2Proof/Laws/State.lean ====
section
/-! SUPPORT. One lemma per field per update of the machine, so that no proof unfolds a record update. -/

namespace Sys2Proof.Machine

variable (s : State)

@[simp] theorem State.setRegs_regs (r : Registers) : (s.setRegs r).regs = r := rfl
@[simp] theorem State.setRegs_params (r : Registers) : (s.setRegs r).params = s.params := rfl
@[simp] theorem State.setRegs_boot (r : Registers) : (s.setRegs r).boot = s.boot := rfl
@[simp] theorem State.setRegs_bootFirst (r : Registers) : (s.setRegs r).bootFirst = s.bootFirst := rfl
@[simp] theorem State.setRegs_arrivals (r : Registers) : (s.setRegs r).arrivals = s.arrivals := rfl
@[simp] theorem State.setRegs_responses (r : Registers) : (s.setRegs r).responses = s.responses := rfl
@[simp] theorem State.setRegs_mouseResets (r : Registers) : (s.setRegs r).mouseResets = s.mouseResets := rfl
@[simp] theorem State.setRegs_draws (r : Registers) : (s.setRegs r).draws = s.draws := rfl

@[simp] theorem State.respond_regs (v : Byte) : (s.respond v).regs = s.regs := rfl
@[simp] theorem State.respond_params (v : Byte) : (s.respond v).params = s.params := rfl
@[simp] theorem State.respond_boot (v : Byte) : (s.respond v).boot = s.boot := rfl
@[simp] theorem State.respond_bootFirst (v : Byte) : (s.respond v).bootFirst = s.bootFirst := rfl
@[simp] theorem State.respond_arrivals (v : Byte) : (s.respond v).arrivals = s.arrivals := rfl
@[simp] theorem State.respond_responses (v : Byte) : (s.respond v).responses = s.responses ++ [v] := rfl
@[simp] theorem State.respond_mouseResets (v : Byte) : (s.respond v).mouseResets = s.mouseResets := rfl
@[simp] theorem State.respond_draws (v : Byte) : (s.respond v).draws = s.draws := rfl

@[simp] theorem State.skipDraws_regs (n : Nat) : (s.skipDraws n).regs = s.regs := rfl
@[simp] theorem State.skipDraws_params (n : Nat) : (s.skipDraws n).params = s.params := rfl
@[simp] theorem State.skipDraws_boot (n : Nat) : (s.skipDraws n).boot = s.boot := rfl
@[simp] theorem State.skipDraws_bootFirst (n : Nat) : (s.skipDraws n).bootFirst = s.bootFirst := rfl
@[simp] theorem State.skipDraws_arrivals (n : Nat) : (s.skipDraws n).arrivals = s.arrivals := rfl
@[simp] theorem State.skipDraws_responses (n : Nat) : (s.skipDraws n).responses = s.responses := rfl
@[simp] theorem State.skipDraws_mouseResets (n : Nat) : (s.skipDraws n).mouseResets = s.mouseResets := rfl
@[simp] theorem State.skipDraws_draws (n : Nat) : (s.skipDraws n).draws = s.draws + n := rfl

@[simp] theorem State.signalMouse_regs : (s.signalMouse).regs = s.regs := rfl
@[simp] theorem State.signalMouse_params : (s.signalMouse).params = s.params := rfl
@[simp] theorem State.signalMouse_boot : (s.signalMouse).boot = s.boot := rfl
@[simp] theorem State.signalMouse_bootFirst : (s.signalMouse).bootFirst = s.bootFirst := rfl
@[simp] theorem State.signalMouse_arrivals : (s.signalMouse).arrivals = s.arrivals := rfl
@[simp] theorem State.signalMouse_responses : (s.signalMouse).responses = s.responses := rfl
@[simp] theorem State.signalMouse_mouseResets : (s.signalMouse).mouseResets = s.mouseResets + 1 := rfl
@[simp] theorem State.signalMouse_draws : (s.signalMouse).draws = s.draws := rfl

@[simp] theorem State.setArrivals_regs (l : List Event) : (s.setArrivals l).regs = s.regs := rfl
@[simp] theorem State.setArrivals_params (l : List Event) : (s.setArrivals l).params = s.params := rfl
@[simp] theorem State.setArrivals_boot (l : List Event) : (s.setArrivals l).boot = s.boot := rfl
@[simp] theorem State.setArrivals_bootFirst (l : List Event) : (s.setArrivals l).bootFirst = s.bootFirst := rfl
@[simp] theorem State.setArrivals_arrivals (l : List Event) : (s.setArrivals l).arrivals = l := rfl
@[simp] theorem State.setArrivals_responses (l : List Event) : (s.setArrivals l).responses = s.responses := rfl
@[simp] theorem State.setArrivals_mouseResets (l : List Event) : (s.setArrivals l).mouseResets = s.mouseResets := rfl
@[simp] theorem State.setArrivals_draws (l : List Event) : (s.setArrivals l).draws = s.draws := rfl

@[simp] theorem State.setBoot_regs (b : BootPhase) : (s.setBoot b).regs = s.regs := rfl
@[simp] theorem State.setBoot_params (b : BootPhase) : (s.setBoot b).params = s.params := rfl
@[simp] theorem State.setBoot_boot (b : BootPhase) : (s.setBoot b).boot = b := rfl
@[simp] theorem State.setBoot_bootFirst (b : BootPhase) : (s.setBoot b).bootFirst = s.bootFirst := rfl
@[simp] theorem State.setBoot_arrivals (b : BootPhase) : (s.setBoot b).arrivals = s.arrivals := rfl
@[simp] theorem State.setBoot_responses (b : BootPhase) : (s.setBoot b).responses = s.responses := rfl
@[simp] theorem State.setBoot_mouseResets (b : BootPhase) : (s.setBoot b).mouseResets = s.mouseResets := rfl
@[simp] theorem State.setBoot_draws (b : BootPhase) : (s.setBoot b).draws = s.draws := rfl

@[simp] theorem State.setBootFirst_regs (l : List Bool) : (s.setBootFirst l).regs = s.regs := rfl
@[simp] theorem State.setBootFirst_params (l : List Bool) : (s.setBootFirst l).params = s.params := rfl
@[simp] theorem State.setBootFirst_boot (l : List Bool) : (s.setBootFirst l).boot = s.boot := rfl
@[simp] theorem State.setBootFirst_bootFirst (l : List Bool) : (s.setBootFirst l).bootFirst = l := rfl
@[simp] theorem State.setBootFirst_arrivals (l : List Bool) : (s.setBootFirst l).arrivals = s.arrivals := rfl
@[simp] theorem State.setBootFirst_responses (l : List Bool) : (s.setBootFirst l).responses = s.responses := rfl
@[simp] theorem State.setBootFirst_mouseResets (l : List Bool) : (s.setBootFirst l).mouseResets = s.mouseResets := rfl
@[simp] theorem State.setBootFirst_draws (l : List Bool) : (s.setBootFirst l).draws = s.draws := rfl

@[simp] theorem State.takeTurn_regs : s.takeTurn.regs = s.regs := rfl
@[simp] theorem State.takeTurn_params : s.takeTurn.params = s.params := rfl
@[simp] theorem State.takeTurn_boot : s.takeTurn.boot = s.boot := rfl
@[simp] theorem State.takeTurn_bootFirst : s.takeTurn.bootFirst = scheduleAfter s.boot s.bootFirst := rfl
@[simp] theorem State.takeTurn_arrivals : s.takeTurn.arrivals = s.arrivals := rfl
@[simp] theorem State.takeTurn_responses : s.takeTurn.responses = s.responses := rfl
@[simp] theorem State.takeTurn_mouseResets : s.takeTurn.mouseResets = s.mouseResets := rfl
@[simp] theorem State.takeTurn_draws : s.takeTurn.draws = s.draws := rfl

/-- A turn of the boot takes the head of its schedule. -/
theorem scheduleAfter_booting {b : BootPhase} (h : b ≠ .looping) (l : List Bool) : scheduleAfter b l = l.tail := by
  cases b <;> first | rfl | exact absurd rfl h

/-- A turn of the loop takes nothing from the boot's schedule. -/
theorem State.takeTurn_looping {s : State} (h : s.boot = .looping) : s.takeTurn = s := by
  rw [State.takeTurn, h]
  rfl

end Sys2Proof.Machine
end

