-- ==== Sys2Proof/Laws/Step.lean ====
section
/-! SUPPORT. What one step can do. -/

namespace Sys2Proof.Machine

/-- Every operation completes. -/
theorem exec_next (i : Instr) (s : State) : ∃ t, exec i s = .next t := by
  cases i <;> exact ⟨_, rfl⟩

/-- The fields no operation touches. -/
theorem exec_frame {i : Instr} {s t : State} (h : exec i s = .next t) :
    t.params = s.params ∧ t.boot = s.boot ∧ t.arrivals = s.arrivals ∧ t.mouseResets = s.mouseResets := by
  cases i <;> cases h <;> exact ⟨rfl, rfl, rfl, rfl⟩

/-- What an operation does to the registers: only the device-select writes change any. -/
def regsAfter (i : Instr) (r : Registers) : Registers :=
  match i with
  | .wrPa _ _ d => r.storeData .a d
  | .wrCra _ _ d => r.setControl .a (ctrlOfData d)
  | .wrPb _ _ d => (r.storeData .b d).recompute
  | .wrCrb _ _ d => r.setControl .b (ctrlOfData d)
  | .rdPa _ _ | .rdCra _ _ | .rdPb _ _ | .rdCrb _ _ | .rdFw _ _ | .rdIostb _ | .wrIosel _ _ | .wrIostb _ _ => r

theorem exec_regs {i : Instr} {s t : State} (h : exec i s = .next t) : t.regs = regsAfter i s.regs := by
  cases i <;> cases h <;> rfl

/-- The gate lets an event through exactly when the parameters admit it. -/
theorem gate_eq_none (p : Config.Params) (e : Event) : gate p e = none ↔ e.wf p = true := by
  have low : ∀ hi : HighBits, devselRefused p hi = !p.admitsHighBits hi := by
    intro hi
    have : hi.extractLsb' 0 2 = 0 ↔ hi.getLsbD 0 = false ∧ hi.getLsbD 1 = false := by
      constructor
      · intro h
        have h0 := congrArg (fun x => x.getLsbD 0) h
        have h1 := congrArg (fun x => x.getLsbD 1) h
        simpa [BitVec.getLsbD_extractLsb'] using And.intro h0 h1
      · rintro ⟨h0, h1⟩
        apply BitVec.eq_of_getLsbD_eq
        intro k hk
        obtain rfl | rfl : k = 0 ∨ k = 1 := by omega
        all_goals simp_all
    unfold devselRefused Config.Params.admitsHighBits
    cases p.devselHighBits
    · simp
    · by_cases h : hi.extractLsb' 0 2 = 0
      · obtain ⟨h0, h1⟩ := this.1 h
        simp only [h, h0, h1]
        rfl
      · have h' := mt this.2 h
        cases h0 : hi.getLsbD 0 <;> cases h1 : hi.getLsbD 1 <;> simp_all
  cases e with
  | cycle c => cases hc : c.io <;> cases hp : p.admitsHighBits (c.a.extractLsb' 2 10) <;> simp [gate, Event.wf, low, hc, hp]
  | reset b => simp [gate, Event.wf]
  | ext port m v =>
    have mask : ∀ x : Byte, (if x = 0 then none else some (Refusal.extMask port)) = none ↔ (x == 0) = true := by
      intro x
      by_cases h : x = 0 <;> simp [h]
    cases port <;> exact mask _
  | wrPbRace hi stb d o => cases hp : p.admitsHighBits hi <;> simp [gate, Event.wf, low, hp]

/-- While the platform boots, a step moves the boot on, unless an external mutation comes first. -/
theorem step_booting {s : State} (h : s.boot ≠ .looping) (hm : s.mutationFirst = false) :
    step s = .next (s.takeTurn.setBoot s.boot.next) := by
  unfold step turn
  split
  · exact absurd ‹_› h
  all_goals simp [hm]

/-- An external mutation that comes first while the platform boots is the event served. -/
theorem step_early {s : State} (h : s.boot ≠ .looping) (hm : s.mutationFirst = true) :
    step s = serveNext s.takeTurn := by
  unfold step turn
  split
  · exact absurd ‹_› h
  all_goals simp [hm]

/-- Serving the event at the head of the arrivals. -/
theorem serveNext_event {s : State} {e : Event} {rest : List Event} (ha : s.arrivals = e :: rest) :
    serveNext s = match gate s.params e with
      | some r => .refused r
      | none => serve e (s.setArrivals rest) := by
  cases hg : gate s.params e <;> simp [serveNext, ha, hg]

/-- Serving the event at the head of the arrivals, an admitted one. -/
theorem serveNext_admitted {s : State} {e : Event} {rest : List Event} (ha : s.arrivals = e :: rest)
    (hw : e.wf s.params = true) : serveNext s = serve e (s.setArrivals rest) := by
  simp [serveNext, ha, (gate_eq_none s.params e).2 hw]

/-- What it takes for an external mutation to come first. -/
theorem mutationFirst_iff (s : State) : s.mutationFirst = true ↔
    ∃ e rest, s.arrivals = e :: rest ∧ isMutation e = true ∧ s.bootFirst.head? ≠ some true := by
  cases ha : s.arrivals <;> simp [State.mutationFirst, ha]

/-- The loop with nothing to serve. -/
theorem step_idle_eq {s : State} (hb : s.boot = .looping) (ha : s.arrivals = []) : step s = .next s := by
  simp [step, turn, serveNext, hb, ha]

/-- The loop with an event to serve. -/
theorem step_event {s : State} {e : Event} {rest : List Event} (hb : s.boot = .looping) (ha : s.arrivals = e :: rest) :
    step s = match gate s.params e with
      | some r => .refused r
      | none => serve e (s.setArrivals rest) := by
  rw [← serveNext_event ha]
  simp [step, turn, hb]

/-- The loop with an admitted event to serve. -/
theorem step_admitted {s : State} {e : Event} {rest : List Event} (hb : s.boot = .looping)
    (ha : s.arrivals = e :: rest) (hw : e.wf s.params = true) : step s = serve e (s.setArrivals rest) := by
  rw [← serveNext_admitted ha hw]
  simp [step, turn, hb]

/-- An admitted event that is served, in the loop or before it. -/
theorem step_serves {s : State} {e : Event} {rest : List Event} (hr : s.boot = .looping ∨ s.mutationFirst = true)
    (ha : s.arrivals = e :: rest) (hw : e.wf s.params = true) :
    step s = serve e (s.takeTurn.setArrivals rest) := by
  by_cases hb : s.boot = .looping
  · rw [State.takeTurn_looping hb, step_admitted hb ha hw]
  · rw [step_early hb (hr.resolve_left hb)]
    exact serveNext_admitted (s := s.takeTurn) ha hw

/-- What serving an event that answers a next state can have done. -/
theorem serveNext_cases {s t : State} {e : Event} {rest : List Event} (ha : s.arrivals = e :: rest)
    (h : serveNext s = .next t) : e.wf s.params = true ∧ serve e (s.setArrivals rest) = .next t := by
  rw [serveNext_event ha] at h
  cases hg : gate s.params e with
  | some r => simp [hg] at h
  | none => exact ⟨(gate_eq_none _ _).1 hg, by simpa [hg] using h⟩

/-- Everything a step that answers a next state can have done: a boot step, nothing, or the service of an
event, which while the platform boots is one of the external agent's. -/
theorem step_cases {s t : State} (h : step s = .next t) :
    (s.boot ≠ .looping ∧ s.mutationFirst = false ∧ t = s.takeTurn.setBoot s.boot.next) ∨
    (s.boot = .looping ∧ s.arrivals = [] ∧ t = s) ∨
    ∃ e rest, (s.boot = .looping ∨ s.mutationFirst = true ∧ isMutation e = true) ∧ s.arrivals = e :: rest ∧
      e.wf s.params = true ∧ serve e (s.takeTurn.setArrivals rest) = .next t := by
  by_cases hb : s.boot = .looping
  · cases ha : s.arrivals with
    | nil =>
      rw [step_idle_eq hb ha] at h
      cases h
      exact .inr (.inl ⟨hb, rfl, rfl⟩)
    | cons e rest =>
      rw [step_event hb ha, ← serveNext_event ha] at h
      rw [State.takeTurn_looping hb]
      exact .inr (.inr ⟨e, rest, .inl hb, rfl, serveNext_cases ha h⟩)
  · cases hm : s.mutationFirst with
    | false =>
      rw [step_booting hb hm] at h
      cases h
      exact .inl ⟨hb, rfl, rfl⟩
    | true =>
      rw [step_early hb hm] at h
      obtain ⟨e, rest, ha, he, -⟩ := (mutationFirst_iff s).1 hm
      exact .inr (.inr ⟨e, rest, .inr ⟨rfl, he⟩, ha, serveNext_cases (s := s.takeTurn) ha h⟩)

/-- Serving an event always answers a next state, and keeps the parameters and the boot phase. -/
theorem serve_next (e : Event) (s : State) :
    ∃ t, serve e s = .next t ∧ t.params = s.params ∧ t.boot = s.boot ∧ t.arrivals = s.arrivals := by
  cases e with
  | cycle c =>
    obtain ⟨t, ht⟩ := exec_next (decode c) s
    exact ⟨t, ht, (exec_frame ht).1, (exec_frame ht).2.1, (exec_frame ht).2.2.1⟩
  | reset b => cases b <;> exact ⟨_, rfl, rfl, rfl, rfl⟩
  | ext port m v => cases port <;> exact ⟨_, rfl, rfl, rfl, rfl⟩
  | wrPbRace hi stb d o => exact ⟨_, rfl, rfl, rfl, rfl⟩

/-- A run of `k + 1` steps whose first step answers a next state. -/
theorem run_succ {s t : State} (k : Nat) (h : step s = .next t) : core.run (k + 1) s = core.run k t := by
  have h' : core.step s = .next t := h
  simp only [Host.Core.run, h']

end Sys2Proof.Machine
end

