-- ==== Sys2Proof/Tests/Slice0.lean ====
section
/-! SUPPORT. Tests. Every expected value is copied from 95_test_vectors.md or 30_encoding.md (the vector's
name is in the test's), never from the model's own answer. The witnesses at the end show that the
hypotheses of each statement of the obligations can be met together. -/

namespace Sys2Proof.Tests

open Sys2Proof.Machine Sys2Proof.Config Sys2Proof.Safety

/-- A machine whose loop runs, with the given registers and arrivals and the default parameters. -/
def machine (r : Registers) (arrivals : List Event) : State :=
  { State.reset with regs := r, boot := .looping, arrivals := arrivals }

/-- The same under other parameters. -/
def machineWith (p : Params) (r : Registers) (arrivals : List Event) : State :=
  { machine r arrivals with params := p }

/-- A machine right after power-on, with a schedule of the boot and arrivals. -/
def booting (first : List Bool) (arrivals : List Event) : State :=
  { State.reset with bootFirst := first, arrivals := arrivals }

/-- Registers and responses of an outcome. -/
def seen : Host.Outcome State Fault Refusal → Option (Registers × List Byte)
  | .next t => some (t.regs, t.responses)
  | .fault _ => none
  | .refused _ => none

/-- One step on one trace line, under the default parameters. -/
def stepLine (r : Registers) (l : TraceLine) : Option (Registers × List Byte) := seen (step (machine r [lineEvent l]))

def zeros : Registers := Registers.powerOn

/-- The refusal a step ends in. -/
def refusal : Host.Outcome State Fault Refusal → Option Refusal
  | .next _ => none
  | .fault _ => none
  | .refused r => some r

/-! ### Ill-formed terms are refused by the checks of WellFormed.lean -/

def refusing : Params := { Params.default with devselHighBits := .refuse }

theorem test_wf_image_not_rising :
    ({ Params.default with fwImage := [(5, ~~~fwByte 5), (5, ~~~fwByte 5)] } : Params).wf = false := by
  simp [Params.wf, Config.Memory.wf]

theorem test_wf_image_outside :
    ({ Params.default with fwImage := [(0x800, ~~~fwByte 0x800)] } : Params).wf = false := by
  simp [Params.wf, Config.Memory.wf, Params.fwSize, Params.default]

theorem test_wf_image_cell_not_canonical :
    ({ Params.default with fwImage := [(5, fwByte 5)] } : Params).wf = false := by
  simp [Params.wf, Config.Memory.wf]

theorem test_wf_high_bits : Instr.wf refusing (.wrCrb 0b0000110001 false 0x3B) = false := by decide

theorem test_wf_cycle : Event.wf refusing (lineEvent (.wrDev 0x0C7 0x3B)) = false := by decide

theorem test_wf_race : Event.wf refusing (.wrPbRace 0b0000110010 false 0 .resetLast) = false := by decide

theorem test_wf_mask : Event.wf { Params.default with extMaskA := 0x80 } (.ext .a 0x01 0x01) = false := by decide

/-! ### Decode: the patterns of R84 and the words of 95_test_vectors.md 2.2, bit by bit -/

theorem test_decode_rdPa : decodeTableWord 16 0b100000000000000 = some (.rdPa 0 false) := by decide
theorem test_decode_rdCra : decodeTableWord 16 0b100000000000001 = some (.rdCra 0 false) := by decide
theorem test_decode_rdPb_strobe : decodeTableWord 16 0b110000000000010 = some (.rdPb 0 true) := by decide
theorem test_decode_rdCrb : decodeTableWord 16 0b100000000000011 = some (.rdCrb 0 false) := by decide
theorem test_decode_rdPa_alias : decodeTableWord 16 0b100111111111100 = some (.rdPa 0b1111111111 false) := by decide
theorem test_decode_wrPa : decodeTableWord 16 0b000000000000000 = some (.wrPa 0 false 0) := by decide
theorem test_decode_wrCra_strobe : decodeTableWord 16 0b010000000000001 = some (.wrCra 0 true 0) := by decide
theorem test_decode_wrPb_alias : decodeTableWord 16 0b000111111111110 = some (.wrPb 0b1111111111 false 0) := by decide
theorem test_decode_wrCrb_data : decodeTableWord 24 0b00000100_0_000000011000011 = some (.wrCrb 0b0000110000 false 0x04) := by decide
theorem test_decode_rdFw : decodeTableWord 16 0b101111111111111 = some (.rdFw 0xF 0xFF) := by decide
theorem test_decode_rdIostb : decodeTableWord 16 0b111100000000000 = some (.rdIostb 0x800) := by decide
theorem test_decode_wrIosel : decodeTableWord 16 0b001000000000000 = some (.wrIosel 0 0) := by decide
theorem test_decode_wrIostb : decodeTableWord 16 0b011100000000000 = some (.wrIostb 0x800 0) := by decide
theorem test_decode_too_wide : decodeTableWord 16 0b1000000000000000 = none := by decide

/-! ### Device-select (95_test_vectors.md 2.3 and 2.4) -/

theorem test_rdPa_V_DR_1 : stepLine { zeros with outputA := 0xAA, dataDirA := 0x55 } (.rdDev 0x0C0) =
    some ({ zeros with outputA := 0xAA, dataDirA := 0x55 }, [0xAA]) := by decide

theorem test_rdCra_V_DR_3 : stepLine { zeros with controlA := 0x3F } (.rdDev 0x0C1) =
    some ({ zeros with controlA := 0x3F }, [0x3F]) := by decide

theorem test_rdPb_V_DR_4 : stepLine { zeros with outputB := 0x0A } (.rdDev 0x0C2) =
    some ({ zeros with outputB := 0x0A }, [0x0A]) := by decide

theorem test_rdCrb_V_DR_6 : stepLine { zeros with controlB := 0x3B } (.rdDev 0x0CF) =
    some ({ zeros with controlB := 0x3B }, [0x3B]) := by decide

theorem test_wrPa_V_DW_3 : stepLine { zeros with controlA := 0x3B } (.wrDev 0x0C0 0xFF) =
    some ({ zeros with controlA := 0x3B, dataDirA := 0xFF }, []) := by decide

theorem test_wrPa_V_DW_4 : stepLine { zeros with controlA := 0x3F } (.wrDev 0x0C0 0x12) =
    some ({ zeros with controlA := 0x3F, outputA := 0x12 }, []) := by decide

theorem test_wrCra_V_DW_6 : stepLine zeros (.wrDev 0x0C1 0xC4) = some ({ zeros with controlA := 0x04 }, []) := by
  decide

theorem test_wrPb_V_DW_8 : stepLine { zeros with controlB := 0x04, dataDirB := 0x0E } (.wrDev 0x0C2 0x0A) =
    some ({ zeros with controlB := 0x04, dataDirB := 0x0E, outputB := 0x0A, bankOffset := 0x500 }, []) := by decide

theorem test_wrPb_V_DW_9 :
    stepLine { zeros with dataDirB := 0x02, outputB := 0xFF, bankOffset := 0x100 } (.wrDev 0x0C2 0x0E) =
      some ({ zeros with dataDirB := 0x0E, outputB := 0xFF, bankOffset := 0x700 }, []) := by decide

theorem test_wrCrb_V_DW_12 :
    stepLine { zeros with controlB := 0x04, dataDirB := 0x0E, outputB := 0x0A, bankOffset := 0x500 } (.wrDev 0x0C3 0x00) =
      some ({ zeros with dataDirB := 0x0E, outputB := 0x0A, bankOffset := 0x500 }, []) := by decide

/-! ### I/O-select and I/O-strobe (95_test_vectors.md 2.5) -/

theorem test_rdFw_V_IO_1 : stepLine { zeros with bankOffset := 0x500 } (.rdIosel 0x4A0) =
    some ({ zeros with bankOffset := 0x500 }, [fwByte 0x5A0]) := rfl

theorem test_rdFw_V_IO_4 :
    seen (step (machineWith { Params.default with fwImage := [(0x0F10, 0x11), (0x310, 0x42)] }
      { zeros with bankOffset := 0x300 } [lineEvent (.rdIosel 0xF10)])) =
      some ({ zeros with bankOffset := 0x300 }, [0x42]) := by decide

theorem test_rdIostb_V_IO_5 :
    (stepLine { zeros with outputA := 0xAA } (.rdIostb 0x800)).map (fun x => (x.1, x.2.length)) =
      some ({ zeros with outputA := 0xAA }, 1) := by decide

theorem test_wrIosel_V_IO_7 : stepLine { zeros with bankOffset := 0x700 } (.wrIosel 0x4FF 0x34) =
    some ({ zeros with bankOffset := 0x700 }, []) := by decide

theorem test_wrIostb_V_IO_6 : stepLine { zeros with outputB := 0x0A } (.wrIostb 0x800 0x12) =
    some ({ zeros with outputB := 0x0A }, []) := by decide

/-! ### Bank function, external port, reset (95_test_vectors.md 2.1, 2.6, 2.7) -/

theorem test_fBank_rows : fBank 0xFF 0xFF = 0x700 ∧ fBank 0x0E 0x0A = 0x500 ∧ fBank 0x06 0x0C = 0x200 ∧
    fBank 0x01 0xFF = 0x000 ∧ fBank 0xF0 0xFF = 0x000 := by decide

theorem test_extA_V_EXT_2 : stepLine { zeros with outputA := 0x81 } (.extLine .a 0x81 0x00) = some (zeros, []) := by
  decide

theorem test_extB_V_EXT_5 : stepLine { zeros with dataDirB := 0x0E } (.extLine .b 0x06 0x06) =
    some ({ zeros with dataDirB := 0x0E, outputB := 0x06, bankOffset := 0x300 }, []) := by decide

/-- The example of R160, between power-on and the first boot step after it (R163, R207). -/
theorem test_extA_R160_while_booting :
    seen (step (booting [] [.ext .a 0x80 0x80])) = some ({ zeros with outputA := 0x80 }, []) := by decide

/-- R207: a reset that arrives before the loop runs waits. -/
theorem test_reset_waits_R207 : step (booting [] [.reset true]) =
    .next { booting [] [.reset true] with boot := .producerInitialised } := rfl

theorem test_extA_V_EXT_6 :
    refusal (step (machineWith { Params.default with extMaskA := 0x80 } zeros [.ext .a 0x01 0x01])) =
      some (.extMask .a) := by decide

def bankFive : Registers := { zeros with controlB := 0x04, dataDirB := 0x0E, outputB := 0x0A, bankOffset := 0x500 }

theorem test_reset_V_RS_1 : stepLine bankFive (.resetLine true) = some (zeros, []) := by decide

theorem test_reset_V_RS_2 :
    seen (step (machineWith { Params.default with regResetPolicy := .keep } bankFive [.reset true])) =
      some ({ bankFive with bankOffset := 0 }, []) := by decide

theorem test_reset_V_RS_4 : stepLine bankFive (.resetLine false) = some (bankFive, []) := by decide

theorem test_race_V_RS_5 :
    seen (step (machine { zeros with controlB := 0x04, dataDirB := 0x0E } [.wrPbRace 0x030 false 0x0A .resetLast])) =
      some (zeros, []) ∧
    seen (step (machine { zeros with controlB := 0x04, dataDirB := 0x0E } [.wrPbRace 0x030 false 0x0A .decoderStale])) =
      some ({ zeros with bankOffset := 0x500 }, []) := by decide

theorem test_refuse_P4_step_9 :
    refusal (step (machineWith refusing zeros [lineEvent (.wrDev 0x0C7 0x3B)])) = some .devselHighBits := by decide

theorem test_first_instruction_after_reset :
    seen (step (State.reset.withFetchWord 16 0x4001)) = some (zeros, [0x00]) := by decide

/-! ### Witnesses: the hypotheses of the statements are met -/

theorem witness_DecodeClassifiesInOrder :
    (∃ c : BusCycle, c.rd = true ∧ c.io = false) ∧ (∃ c : BusCycle, c.rd = true ∧ c.io = true ∧ c.stb = false) ∧
    (∃ c : BusCycle, c.rd = true ∧ c.io = true ∧ c.stb = true) ∧ (∃ c : BusCycle, c.rd = false ∧ c.io = false) ∧
    (∃ c : BusCycle, c.rd = false ∧ c.io = true ∧ c.stb = false) ∧
    (∃ c : BusCycle, c.rd = false ∧ c.io = true ∧ c.stb = true) :=
  ⟨⟨⟨0, false, true, true, 0⟩, by decide⟩, ⟨⟨0xFFF, true, false, true, 0⟩, by decide⟩,
    ⟨⟨0, true, true, true, 0⟩, by decide⟩, ⟨⟨0xFFF, false, false, false, 0⟩, by decide⟩,
    ⟨⟨0, true, false, false, 0⟩, by decide⟩, ⟨⟨0xFFF, true, true, false, 0⟩, by decide⟩⟩

theorem witness_DecodeFollowsTheOperationTable : (⟨.WR_IOSTB, 0x7000, 0x3000⟩ : OpRow) ∈ opTable := by decide

/-- One word for each encoding clause of the statements of the operations; the ignored bits are set. -/
theorem witness_encoding_clauses :
    (0x6FFC : CycleWord) &&& 0x5003 = 0x4000 ∧ (0x6FFD : CycleWord) &&& 0x5003 = 0x4001 ∧
    (0x6FFE : CycleWord) &&& 0x5003 = 0x4002 ∧ (0x6FFF : CycleWord) &&& 0x5003 = 0x4003 ∧
    (0x2FFC : CycleWord) &&& 0x5003 = 0x0000 ∧ (0x2FFD : CycleWord) &&& 0x5003 = 0x0001 ∧
    (0x2FFE : CycleWord) &&& 0x5003 = 0x0002 ∧ (0x2FFF : CycleWord) &&& 0x5003 = 0x0003 ∧
    (0x5FFF : CycleWord) &&& 0x7000 = 0x5000 ∧ (0x7FFF : CycleWord) &&& 0x7000 = 0x7000 ∧
    (0x1FFF : CycleWord) &&& 0x7000 = 0x1000 ∧ (0x3FFF : CycleWord) &&& 0x7000 = 0x3000 := by decide

theorem witness_ReadsAnswerOnceAndChangeNothing :
    (Instr.rdIostb 0).isRead = true ∧ (Instr.wrPb 0 false 0).isRead = false := by decide

theorem witness_ReadsRepeat : (Instr.rdFw 0 0xFF).isRead = true ∧ (Instr.rdFw 0 0xFF).op ≠ .RD_IOSTB ∧
    ∃ t, exec (.rdFw 0 0xFF) (machine bankFive []) = .next t := ⟨rfl, by decide, _, rfl⟩

theorem witness_IoCycles : (⟨0xFFF, true, true, false, 0⟩ : BusCycle).io = true ∧
    ({ zeros with bankOffset := 0x500 } : Registers).bankOffset = (machine bankFive []).regs.bankOffset := by decide

theorem witness_DeviceSelectIgnoresHighBits :
    (⟨0xFFE, false, true, false, 7⟩ : BusCycle).io = false ∧ (⟨0x002, false, false, false, 7⟩ : BusCycle).io = false ∧
    (0xFFE : Addr).extractLsb' 0 2 = (0x002 : Addr).extractLsb' 0 2 := by decide

theorem witness_WindowIgnoresHighAddressBits :
    (⟨0xFFF, true, false, true, 1⟩ : BusCycle).stb = (⟨0x0FF, true, false, true, 2⟩ : BusCycle).stb ∧
    (⟨0xFFF, true, false, true, 1⟩ : BusCycle).rd = (⟨0x0FF, true, false, true, 2⟩ : BusCycle).rd ∧
    (0xFFF : Addr).extractLsb' 0 8 = (0x0FF : Addr).extractLsb' 0 8 := by decide

theorem witness_IdleControlBitsHaveNoEffect :
    SameButIdleControlBits (machine bankFive []) (machine { bankFive with controlA := 0x3B, controlB := 0x3F } []) ∧
    (Instr.wrPb 0 false 0).op ≠ .RD_CRA ∧ (Instr.wrPb 0 false 0).op ≠ .RD_CRB ∧
    ∃ s', exec (.wrPb 0 false 0) (machine bankFive []) = .next s' :=
  ⟨⟨rfl, by decide⟩, by decide, by decide, _, rfl⟩

theorem witness_PageAligned : PageAligned (machine { zeros with bankOffset := 0x700 } []) := rfl

theorem not_self (v : Byte) : (~~~v != v) = true := by revert v; decide

theorem witness_FirmwareImageBytes :
    ({ Params.default with fwImage := [(0x7FF, ~~~fwByte 0x7FF)] } : Params).wf = true ∧
    (0x7FF, ~~~fwByte 0x7FF) ∈ [(0x7FF, ~~~fwByte 0x7FF)] ∧
    (∀ v, ((0 : Nat), v) ∉ [((0x7FF : Nat), ~~~fwByte 0x7FF)]) := by
  refine ⟨?_, List.mem_singleton.2 rfl, by simp⟩
  simp [Params.wf, Config.Memory.wf, Params.fwSize, Params.default, not_self]

/-- For every statement about the next event being an admitted cycle. -/
theorem witness_admitted_cycle :
    (machineWith refusing bankFive [lineEvent (.wrDev 0x0C2 0x0A)]).boot = .looping ∧
    Event.wf refusing (lineEvent (.wrDev 0x0C2 0x0A)) = true ∧
    refusing.admitsHighBits ((0x0C2 : Addr).extractLsb' 2 10) = true := by decide

theorem witness_StepRunsPlacedWord : (decode (BusCycle.ofWord 0x0FFF 0)).wf Params.default = true ∧
    (decode (BusCycle.ofWord 0x0FF3 0)).wf refusing = true := by decide

theorem witness_NoCycleWordStops :
    (machine zeros [.cycle (BusCycle.ofWord 0x7FFF 0)]).params.devselHighBits = .ignore := rfl

theorem witness_RefusesExactlyWhatIsNotAdmitted :
    Event.wf refusing (.reset true) = true ∧ Event.wf refusing (lineEvent (.rdDev 0x0C4)) = false := by decide

theorem witness_RefusalsByName :
    refusing.devselHighBits = .refuse ∧ (0x0CC : Addr).extractLsb' 2 2 ≠ 0 ∧
    (0x01 : Byte) &&& ~~~({ Params.default with extMaskA := 0x80 } : Params).extMaskA ≠ 0 ∧
    (0x01 : Byte) &&& ~~~({ Params.default with extMaskB := 0xFE } : Params).extMaskB ≠ 0 := by decide

theorem witness_IdleLoop : (machine zeros []).boot = .looping ∧ (machine zeros []).arrivals = [] := ⟨rfl, rfl⟩

theorem witness_BootOrder : State.reset.boot = .poweredOn ∧
    (State.reset.setBoot .producerInitialised).boot = .producerInitialised ∧
    (State.reset.setBoot .callbackRegistered).boot = .callbackRegistered ∧
    (∀ port m v rest, (booting [] [lineEvent (.rdDev 0x0C0), .reset true]).arrivals ≠ .ext port m v :: rest) ∧
    (booting [true] [.ext .b 0x06 0x06]).bootFirst.head? = some true :=
  ⟨rfl, rfl, rfl, (by intro _ _ _ _ h; cases h), rfl⟩

theorem witness_ExternalWriteWhileBooting :
    (booting [true, false] [.ext .b 0xFF 0x0E]).boot ≠ .looping ∧
    (booting [true, false] [.ext .b 0xFF 0x0E]).bootFirst.head? = some true ∧
    (booting [false] [.ext .b 0xFF 0x0E]).bootFirst.head? ≠ some true ∧
    (booting [] [.ext .a 0x00 0xFF]).bootFirst.head? ≠ some true ∧
    Params.default.admitsMask .b 0xFF = true ∧ Params.default.admitsMask .a 0x00 = true ∧
    ({ Params.default with extMaskA := 0x80 } : Params).admitsMask .a 0x01 = false := by decide

theorem witness_MutationsBetweenBootSteps :
    let es : List Event := [.ext .a 0x80 0x80, .ext .b 0xFF 0x0E]
    let s := booting [false, false, true, false] (es ++ [.ext .a 0x01 0x01])
    s.boot ≠ .looping ∧ es.all (fun e => isMutation e && Event.wf s.params e) = true ∧
    s.arrivals = es ++ [.ext .a 0x01 0x01] ∧ s.bootFirst = es.map (fun _ => false) ++ true :: [false] := by decide

theorem witness_ExternalWrites :
    (0x80 : Byte) &&& ~~~({ Params.default with extMaskA := 0x80 } : Params).extMaskA = 0 ∧
    (0xFF : Byte) &&& ~~~Params.default.extMaskB = 0 := by decide

theorem witness_ExternalWriteRepeats :
    ∃ t, step (machine zeros [.ext .b 0x06 0x06, .ext .b 0x06 0x06]) = .next t := ⟨_, rfl⟩

theorem witness_ExternalCannotMoveBank :
    let s := machineWith { Params.default with extMaskB := 0xF1 } bankFive [.ext .b 0xF1 0xFF]
    s.params.extMaskB &&& 0x0E = 0 ∧ LatchConsistent s ∧ ∃ t, step s = .next t := ⟨by decide, rfl, _, rfl⟩

theorem witness_ResetAssertByPolicy :
    ({ Params.default with regResetPolicy := .keep } : Params).regResetPolicy = .keep ∧
    ({ Params.default with regResetPolicy := .any } : Params).regResetPolicy = .any ∧
    Params.default.regResetPolicy = .zero := ⟨rfl, rfl, rfl⟩

theorem witness_ResetIsIdempotent :
    let s := machineWith { Params.default with regResetPolicy := .keep } bankFive [.reset true, .reset true]
    s.params.regResetPolicy ≠ .any ∧ ∃ t, step s = .next t := ⟨by decide, _, rfl⟩

theorem witness_ResetInsideWritePortB :
    Params.default.admitsHighBits 0x3FF = true ∧ refusing.admitsHighBits 0x3FC = true ∧
    (0x0A : Byte) = (if bankFive.controlB.getLsbD 2 then 0x0A else bankFive.outputB) ∧
    (0x0E : Byte) = (if bankFive.controlB.getLsbD 2 then bankFive.dataDirB else 0x0A) := by decide

theorem witness_WindowShowsPageZeroAfterReset :
    decode ⟨0x4A0, true, false, true, 0⟩ = .rdFw 0x4 0xA0 := by decide

theorem witness_PortBWritesRestoreTheLatch :
    ∃ t, step (machine { bankFive with bankOffset := 0 } [.ext .b 0x00 0x00]) = .next t := ⟨_, rfl⟩

theorem witness_BankChangeSeenByNextFirmwareRead :
    decode ⟨0x0C2, false, false, false, 0x0A⟩ = .wrPb 0b0000110000 false 0x0A ∧
    Event.wf Params.default (.cycle ⟨0x0C2, false, false, false, 0x0A⟩) = true ∧
    decode ⟨0x4FF, true, false, true, 0⟩ = .rdFw 0x4 0xFF := by decide

theorem witness_ExternalWriteSeenByNextRead :
    decode ⟨0x0C0, false, false, true, 0⟩ = .rdPa 0b0000110000 false ∧
    decode ⟨0x0C2, false, true, true, 0⟩ = .rdPb 0b0000110000 true ∧
    (0x80 : Byte) &&& ~~~Params.default.extMaskA = 0 ∧ (0x80 : Byte) &&& ~~~Params.default.extMaskB = 0 := by decide

theorem witness_ObservationPort : bankFive.controlA.getLsbD 2 = false := by decide

theorem witness_SelectBank :
    (machine zeros ((selBank 0x030 7).map lineEvent ++ [.reset true])).boot = .looping ∧
    Params.default.admitsHighBits 0x030 = true ∧ refusing.admitsHighBits 0x030 = true := by decide

theorem witness_PageAlignedKept : PageAligned (machine bankFive [.reset true]) ∧
    ∃ t, step (machine bankFive [.reset true]) = .next t := ⟨rfl, _, rfl⟩

theorem witness_LatchConsistentKept :
    LatchConsistent (machine bankFive [.reset true]) ∧ NoStaleReset (machine bankFive [.reset true]) ∧
    ∃ t, step (machine bankFive [.reset true]) = .next t := ⟨rfl, ⟨rfl, rfl⟩, _, rfl⟩

theorem witness_step_answers_next : ∃ t, step (machine zeros [lineEvent (.wrDev 0x0C2 0xFF)]) = .next t := ⟨_, rfl⟩

theorem witness_HostNeverSeesDataDirA :
    SameButDataDirA (machine bankFive [lineEvent (.rdDev 0x0C0)])
      (machine { bankFive with dataDirA := 0xFF } [lineEvent (.rdDev 0x0C0)]) ∧
    ∃ s', core.run 1 (machine bankFive [lineEvent (.rdDev 0x0C0)]) = .next s' := ⟨rfl, _, rfl⟩

theorem witness_Admitted :
    Admitted (machineWith refusing zeros [lineEvent (.rdDev 0x0C0), .reset true, .ext .b 0xFF 0x0E,
      .wrPbRace 0x030 false 0x0A .decoderFresh, lineEvent (.rdIostb 0xFFF)]) := by
  unfold Admitted
  decide

end Sys2Proof.Tests
end

/-! SUPPORT. Proofs of the statements about the state (family 10_state): the rules they share, then the
statements. -/

/-! ### What the operations do to the registers and the responses -/

namespace Sys2Proof.Machine

open Config

@[simp] theorem Registers.output_setControl (p q : Port) (c : Ctrl) (r : Registers) :
    (r.setControl p c).output q = r.output q := by cases p <;> cases q <;> rfl

@[simp] theorem Registers.dataDir_setControl (p q : Port) (c : Ctrl) (r : Registers) :
    (r.setControl p c).dataDir q = r.dataDir q := by cases p <;> cases q <;> rfl

@[simp] theorem Registers.control_setControl_of_ne {p q : Port} (h : q ≠ p) (c : Ctrl) (r : Registers) :
    (r.setControl p c).control q = r.control q := by
  cases p <;> cases q <;> simp_all [Registers.setControl, Registers.control]

@[simp] theorem Registers.output_setOutput_of_ne {p q : Port} (h : q ≠ p) (v : Byte) (r : Registers) :
    (r.setOutput p v).output q = r.output q := by
  cases p <;> cases q <;> simp_all [Registers.setOutput, Registers.output]

@[simp] theorem Registers.dataDir_setDataDir_of_ne {p q : Port} (h : q ≠ p) (v : Byte) (r : Registers) :
    (r.setDataDir p v).dataDir q = r.dataDir q := by
  cases p <;> cases q <;> simp_all [Registers.setDataDir, Registers.dataDir]

@[simp] theorem Registers.bankOffset_setOutput (p : Port) (v : Byte) (r : Registers) :
    (r.setOutput p v).bankOffset = r.bankOffset := by cases p <;> rfl

@[simp] theorem Registers.bankOffset_setDataDir (p : Port) (v : Byte) (r : Registers) :
    (r.setDataDir p v).bankOffset = r.bankOffset := by cases p <;> rfl

/-- A data write by itself does not touch the bank latch: the recomputation is `settle`'s (10_state.md R26). -/
@[simp] theorem Registers.bankOffset_storeData (p : Port) (d : Byte) (r : Registers) :
    (r.storeData p d).bankOffset = r.bankOffset := by
  obtain ⟨-, h⟩ | ⟨-, h⟩ := r.storeData_eq p d <;> simp [h]

/-- The registers a reset inside a `WR_PB` of `d` leaves (70_reset_and_hazards.md R204). -/
def Registers.afterRace (policy : RegResetPolicy) (n : Nat) (d : Byte) (outcome : RaceOutcome) (r : Registers) :
    Registers :=
  let w := r.storeData .b d
  let z := w.hostReset policy n
  { z with bankOffset := raceBank w z outcome }

/-- What serving an event does to the registers, under a reset policy and with `n` draws taken. -/
def regsServed (policy : RegResetPolicy) (n : Nat) (r : Registers) : Event → Registers
  | .cycle c => regsAfter (decode c) r
  | .reset true => r.hostReset policy n
  | .reset false => r
  | .ext port m v => r.extWrite port m v
  | .wrPbRace _ _ d outcome => r.afterRace policy n d outcome

/-- The bytes an operation responds: one for a read, none for a write (70_reset_and_hazards.md R214). -/
def answer (s : State) : Instr → List Byte
  | .rdPa _ _ => [s.regs.output .a]
  | .rdPb _ _ => [s.regs.output .b]
  | .rdCra _ _ => [dataOfCtrl (s.regs.control .a)]
  | .rdCrb _ _ => [dataOfCtrl (s.regs.control .b)]
  | .rdFw _ off => [fwRead s.params (fwIndex off s.regs.bankOffset).toNat]
  | .rdIostb _ => [draw 8 s.draws]
  | .wrPa _ _ _ | .wrCra _ _ _ | .wrPb _ _ _ | .wrCrb _ _ _ | .wrIosel _ _ | .wrIostb _ _ => []

/-- How many draws an operation takes. -/
def drawsTaken : Instr → Nat
  | .rdIostb _ => 1
  | .rdPa _ _ | .rdCra _ _ | .rdPb _ _ | .rdCrb _ _ | .rdFw _ _ => 0
  | .wrPa _ _ _ | .wrCra _ _ _ | .wrPb _ _ _ | .wrCrb _ _ _ | .wrIosel _ _ | .wrIostb _ _ => 0

/-- An operation, whole: the registers it writes, the bytes it responds, the draws it takes. -/
theorem exec_eq (i : Instr) (s : State) : exec i s = .next { s with
    regs := regsAfter i s.regs
    responses := s.responses ++ answer s i
    draws := s.draws + drawsTaken i } := by
  cases i with
  | rdPa | rdCra | rdPb | rdCrb | rdFw | rdIostb => rfl
  | wrPa | wrCra | wrPb | wrCrb | wrIosel | wrIostb =>
    simp only [answer, List.append_nil]
    rfl

/-- The same operation on other registers that answer alike: the two states it leads to differ in the registers
alone. -/
theorem exec_setRegs {i : Instr} {s s' : State} {r : Registers} (h : exec i s = .next s')
    (ha : answer (s.setRegs r) i = answer s i) :
    exec i (s.setRegs r) = .next (s'.setRegs (regsAfter i r)) := by
  rw [exec_eq] at h ⊢
  cases h
  rw [ha]
  rfl

/-- What serving an event does to the registers. -/
theorem serve_regs {e : Event} {s t : State} (h : serve e s = .next t) :
    t.regs = regsServed s.params.regResetPolicy s.draws s.regs e := by
  cases e with
  | cycle c => exact exec_regs h
  | reset b => cases b <;> cases h <;> rfl
  | ext port m v => cases port <;> cases h <;> rfl
  | wrPbRace hi stb d outcome => cases h; rfl

/-- The same event on other registers that answer alike: the two states it leads to differ in the registers
alone. -/
theorem serve_setRegs {e : Event} {s s' : State} {r : Registers} (h : serve e s = .next s')
    (ha : ∀ i, answer (s.setRegs r) i = answer s i) :
    serve e (s.setRegs r) = .next (s'.setRegs (regsServed s.params.regResetPolicy s.draws r e)) := by
  cases e with
  | cycle c => exact exec_setRegs h (ha (decode c))
  | reset b => cases b <;> cases h <;> rfl
  | ext port m v => cases port <;> cases h <;> rfl
  | wrPbRace hi stb d outcome => cases h; rfl

/-- Serving an event keeps the parameters and the arrivals. -/
theorem serve_frame {e : Event} {s t : State} (h : serve e s = .next t) :
    t.params = s.params ∧ t.arrivals = s.arrivals := by
  obtain ⟨u, hu, hp, -, ha⟩ := serve_next e s
  rw [h] at hu
  cases hu
  exact ⟨hp, ha⟩

/-- What a step does to the registers, the parameters and the arrivals: nothing, or it serves the event at the
head of the arrivals, which before the loop runs is one of the external agent's. -/
theorem step_regs {s t : State} (h : step s = .next t) :
    (t.regs = s.regs ∧ t.params = s.params ∧ t.arrivals = s.arrivals) ∨
    ∃ e rest, (s.boot = .looping ∨ isMutation e = true) ∧ s.arrivals = e :: rest ∧
      t.regs = regsServed s.params.regResetPolicy s.draws s.regs e ∧ t.params = s.params ∧ t.arrivals = rest := by
  obtain ⟨-, -, rfl⟩ | ⟨-, -, rfl⟩ | ⟨e, rest, hr, ha, -, hs⟩ := step_cases h
  · exact .inl ⟨rfl, rfl, rfl⟩
  · exact .inl ⟨rfl, rfl, rfl⟩
  · obtain ⟨hp, hrest⟩ := serve_frame hs
    exact .inr ⟨e, rest, hr.imp_right And.right, ha, by simpa using serve_regs hs, hp, hrest⟩

/-- No step changes a parameter. -/
theorem step_params {s t : State} (h : step s = .next t) : t.params = s.params := by
  obtain ⟨-, hp, -⟩ | ⟨-, -, -, -, -, hp, -⟩ := step_regs h <;> exact hp

/-- A run of `k + 1` steps that answers a next state begins with a step that does. -/
theorem step_of_run_succ {k : Nat} {s s' : State} (h : core.run (k + 1) s = .next s') :
    ∃ u, step s = .next u ∧ core.run k u = .next s' := by
  cases hs : step s with
  | next u => exact ⟨u, rfl, by rwa [run_succ k hs] at h⟩
  | fault f => cases f
  | refused r =>
    have hs' : core.step s = .refused r := hs
    simp [Host.Core.run, hs'] at h

end Sys2Proof.Machine

/-! ### The bank function and the bank latch -/

namespace Sys2Proof.Safety

open Sys2Proof.Machine Sys2Proof.Config

/-- The two forms of the bank function in 10_state.md R25 agree. -/
theorem fBank_eq_pageBase (ob db : Byte) : fBank ob db = pageBase ob db := by
  apply BitVec.eq_of_getLsbD_eq
  intro k hk
  rw [fBank_bit, pageBase, BitVec.getLsbD_append, BitVec.getLsbD_extractLsb', BitVec.getLsbD_and]
  by_cases h : k < 8
  · simp [h]
  · have h7 : 1 + (k - 8) = k - 7 := by omega
    simp [h, hk, h7, show 8 ≤ k by omega, show k - 8 < 3 by omega]

/-- The bank function in numbers: the four bits it keeps leave room for the shift by 7. -/
theorem fBank_toNat (ob db : Byte) : (fBank ob db).toNat = (ob &&& db &&& 0x0E).toNat * 2 ^ 7 := by
  have hle : (ob &&& db &&& 0x0E).toNat ≤ 14 := by
    rw [BitVec.toNat_and]
    exact Nat.and_le_right
  rw [fBank, BitVec.toNat_shiftLeft, BitVec.toNat_setWidth, Nat.shiftLeft_eq]
  omega

/-- The page number of the bank function stands above eight zero bits. -/
theorem pageBase_toNat (ob db : Byte) :
    (pageBase ob db).toNat = ((ob &&& db).extractLsb' 1 3).toNat * 0x100 := by
  rw [pageBase, BitVec.toNat_append, BitVec.toNat_zero, Nat.or_zero, Nat.shiftLeft_eq]

/-- Every value of the bank function is page-aligned (10_state.md R27). -/
theorem fBank_pageAligned (ob db : Byte) : (fBank ob db).extractLsb' 0 8 = 0 := by
  apply BitVec.eq_of_getLsbD_eq
  intro k hk
  simp [fBank_bit, show ¬8 ≤ k by omega]

/-- An operation keeps the bank latch or stores a value of the bank function in it. -/
theorem bankOffset_regsAfter (i : Instr) (r : Registers) :
    (regsAfter i r).bankOffset = r.bankOffset ∨ ∃ ob db, (regsAfter i r).bankOffset = fBank ob db := by
  cases i with
  | wrPb hi stb d => exact .inr ⟨_, _, rfl⟩
  | wrPa hi stb d => exact .inl (Registers.bankOffset_storeData .a d r)
  | wrCra hi stb d => exact .inl rfl
  | wrCrb hi stb d => exact .inl rfl
  | rdPa | rdCra | rdPb | rdCrb | rdFw | rdIostb | wrIosel | wrIostb => exact .inl rfl

/-- Each of the three stores of a race leaves a value of the bank function (70_reset_and_hazards.md R204). -/
theorem raceBank_eq_fBank (w z : Registers) (outcome : RaceOutcome) :
    ∃ ob db, raceBank w z outcome = fBank ob db := by
  cases outcome with
  | resetLast => exact ⟨0, 0, fBank_zero.symm⟩
  | decoderStale => exact ⟨_, _, rfl⟩
  | decoderFresh => exact ⟨_, _, rfl⟩

/-- An event keeps the bank latch or leaves a value of the bank function in it: a reset's 0 is one. -/
theorem bankOffset_regsServed (policy : RegResetPolicy) (n : Nat) (r : Registers) (e : Event) :
    (regsServed policy n r e).bankOffset = r.bankOffset ∨
      ∃ ob db, (regsServed policy n r e).bankOffset = fBank ob db := by
  cases e with
  | cycle c => exact bankOffset_regsAfter (decode c) r
  | reset asserted =>
    cases asserted with
    | true => exact .inr ⟨0, 0, by rw [fBank_zero]; exact Registers.bankOffset_hostReset policy n r⟩
    | false => exact .inl rfl
  | ext port m v =>
    cases port with
    | a => exact .inl rfl
    | b => exact .inr ⟨_, _, rfl⟩
  | wrPbRace hi stb d outcome => exact .inr (raceBank_eq_fBank _ _ outcome)

/-- The latch holds the bank function of these registers: `LatchConsistent` (10_state.md R26) on the registers
alone. -/
def Latched (r : Registers) : Prop := r.bankOffset = fBank r.outputB r.dataDirB

theorem latchConsistent_iff (s : State) : LatchConsistent s ↔ Latched s.regs := Iff.rfl

/-- Registers with the port B data and the latch of latched ones are latched. -/
theorem Latched.of_same_portB {r r' : Registers} (h : Latched r) (ho : r'.outputB = r.outputB)
    (hd : r'.dataDirB = r.dataDirB) (hb : r'.bankOffset = r.bankOffset) : Latched r' := by
  rw [Latched, ho, hd, hb]
  exact h

/-- An operation keeps the latch consistent: port A data and the control registers play no part in it, and port
B recomputes it. -/
theorem latched_regsAfter (i : Instr) {r : Registers} (h : Latched r) : Latched (regsAfter i r) := by
  cases i with
  | wrPa hi stb d =>
    rw [regsAfter]
    obtain ⟨-, hs⟩ | ⟨-, hs⟩ := r.storeData_eq .a d <;> rw [hs] <;> exact h.of_same_portB rfl rfl rfl
  | wrPb hi stb d => exact Registers.bankOffset_settle_b (r.storeData .b d)
  | wrCra hi stb d => exact h.of_same_portB rfl rfl rfl
  | wrCrb hi stb d => exact h.of_same_portB rfl rfl rfl
  | rdPa | rdCra | rdPb | rdCrb | rdFw | rdIostb | wrIosel | wrIostb => exact h

/-- Under the policy `zero` every event but a race keeps the latch consistent. -/
theorem latched_regsServed (n : Nat) {r : Registers} {e : Event} (he : isRace e = false) (h : Latched r) :
    Latched (regsServed .zero n r e) := by
  cases e with
  | cycle c => exact latched_regsAfter (decode c) h
  | reset asserted =>
    cases asserted with
    | true => exact fBank_zero.symm
    | false => exact h
  | ext port m v =>
    cases port with
    | a => exact h.of_same_portB rfl rfl rfl
    | b => exact Registers.bankOffset_settle_b (r.setOutput .b _)
  | wrPbRace hi stb d outcome => cases he

/-! ### Which field a write leaves alone (10_state.md R30) -/

theorem Field.agrees_refl (f : Field) (r : Registers) : f.agrees r r := by cases f <;> rfl

theorem Field.agrees_trans {f : Field} {r r' r'' : Registers} (h : f.agrees r r') (h' : f.agrees r' r'') :
    f.agrees r r'' := by
  cases f <;> exact Eq.trans h' h

theorem Field.agrees_setControl {f : Field} {p : Port} (hf : f ≠ .control p) (c : Ctrl) (r : Registers) :
    f.agrees r (r.setControl p c) := by
  cases f with
  | control q => exact Registers.control_setControl_of_ne (fun h => hf (congrArg _ h)) c r
  | dataDir q => exact Registers.dataDir_setControl p q c r
  | output q => exact Registers.output_setControl p q c r
  | bank => exact Registers.bankOffset_setControl p c r

theorem Field.agrees_setOutput {f : Field} {p : Port} (hf : f ≠ .output p) (v : Byte) (r : Registers) :
    f.agrees r (r.setOutput p v) := by
  cases f with
  | control q => exact Registers.control_setOutput p q v r
  | dataDir q => exact Registers.dataDir_setOutput p q v r
  | output q => exact Registers.output_setOutput_of_ne (fun h => hf (congrArg _ h)) v r
  | bank => exact Registers.bankOffset_setOutput p v r

theorem Field.agrees_setDataDir {f : Field} {p : Port} (hf : f ≠ .dataDir p) (v : Byte) (r : Registers) :
    f.agrees r (r.setDataDir p v) := by
  cases f with
  | control q => exact Registers.control_setDataDir p q v r
  | dataDir q => exact Registers.dataDir_setDataDir_of_ne (fun h => hf (congrArg _ h)) v r
  | output q => exact Registers.output_setDataDir p q v r
  | bank => exact Registers.bankOffset_setDataDir p v r

theorem Field.agrees_recompute {f : Field} (hf : f ≠ .bank) (r : Registers) : f.agrees r r.recompute := by
  cases f with
  | control p => cases p <;> rfl
  | dataDir p => cases p <;> rfl
  | output p => cases p <;> rfl
  | bank => exact absurd rfl hf

/-- A data write leaves every field alone but the one `ORSEL` selects (10_state.md R22). -/
theorem Field.agrees_storeData {f : Field} {p : Port} {r : Registers}
    (hf : f ≠ if orsel (r.control p) then .output p else .dataDir p) (d : Byte) : f.agrees r (r.storeData p d) := by
  obtain ⟨ho, h⟩ | ⟨ho, h⟩ := r.storeData_eq p d
  · rw [h]
    exact agrees_setOutput (by simpa [ho] using hf) d r
  · rw [h]
    exact agrees_setDataDir (by simpa [ho] using hf) d r

/-- An operation leaves a field alone that the table does not list it for. -/
theorem Field.agrees_regsAfter {f : Field} {r : Registers} {i : Instr} (hf : f.writtenByOp r i.op = false) :
    f.agrees r (regsAfter i r) := by
  cases i with
  | wrPa hi stb d =>
    have hdata : f ≠ if orsel r.controlA then .output .a else .dataDir .a := by
      simpa [writtenByOp, Instr.op] using hf
    exact agrees_storeData (p := .a) hdata d
  | wrPb hi stb d =>
    obtain ⟨hbank, hdata⟩ : f ≠ .bank ∧ f ≠ if orsel r.controlB then .output .b else .dataDir .b := by
      simpa [writtenByOp, Instr.op] using hf
    exact agrees_trans (agrees_storeData (p := .b) hdata d) (agrees_recompute hbank _)
  | wrCra hi stb d => exact agrees_setControl (by simpa [writtenByOp, Instr.op] using hf) _ r
  | wrCrb hi stb d => exact agrees_setControl (by simpa [writtenByOp, Instr.op] using hf) _ r
  | rdPa | rdCra | rdPb | rdCrb | rdFw | rdIostb | wrIosel | wrIostb => exact f.agrees_refl r

/-- An event leaves a field alone that the table does not list it for. -/
theorem Field.agrees_regsServed {f : Field} {r : Registers} {e : Event} (hf : f.writtenBy r e = false)
    (policy : RegResetPolicy) (n : Nat) : f.agrees r (regsServed policy n r e) := by
  cases e with
  | cycle c => exact agrees_regsAfter hf
  | reset asserted =>
    cases asserted with
    | true => cases hf
    | false => exact f.agrees_refl r
  | ext port m v =>
    cases port with
    | a => exact agrees_setOutput (by simpa [writtenBy] using hf) _ r
    | b =>
      obtain ⟨hout, hbank⟩ : f ≠ .output .b ∧ f ≠ .bank := by simpa [writtenBy] using hf
      exact agrees_trans (agrees_setOutput hout _ r) (agrees_recompute hbank _)
  | wrPbRace hi stb d outcome => cases hf

/-! ### Machines that differ in `DataDirA` alone (10_state.md R37) -/

/-- Such a machine is the other one with some value stored in `DataDirA`. -/
theorem sameButDataDirA_iff (s t : State) :
    SameButDataDirA s t ↔ ∃ v, t = s.setRegs (s.regs.setDataDir .a v) := by
  constructor
  · exact fun h => ⟨_, h⟩
  · rintro ⟨v, rfl⟩
    rfl

/-- No operation responds `DataDirA`. -/
theorem answer_setDataDirA (i : Instr) (s : State) (v : Byte) :
    answer (s.setRegs (s.regs.setDataDir .a v)) i = answer s i := by
  cases i <;> rfl

theorem storeData_b_setDataDirA (r : Registers) (v d : Byte) :
    (r.setDataDir .a v).storeData .b d = (r.storeData .b d).setDataDir .a v := by
  simp only [Registers.storeData, Registers.control_setDataDir]
  split <;> rfl

theorem storeData_a_setDataDirA (r : Registers) (v d : Byte) :
    ∃ w, (r.setDataDir .a v).storeData .a d = (r.storeData .a d).setDataDir .a w := by
  simp only [Registers.storeData, Registers.control_setDataDir]
  split
  · exact ⟨v, rfl⟩
  · exact ⟨d, rfl⟩

theorem hostReset_setDataDirA (policy : RegResetPolicy) (n : Nat) (r : Registers) (v : Byte) :
    ∃ w, (r.setDataDir .a v).hostReset policy n = (r.hostReset policy n).setDataDir .a w := by
  cases policy with
  | zero => exact ⟨0, rfl⟩
  | keep => exact ⟨v, rfl⟩
  | any => exact ⟨_, rfl⟩

/-- None of the stores of a race depends on `DataDirA`. -/
theorem raceBank_setDataDirA (w z : Registers) (v v' : Byte) (outcome : RaceOutcome) :
    raceBank (w.setDataDir .a v) (z.setDataDir .a v') outcome = raceBank w z outcome := by
  cases outcome <;> rfl

/-- An operation writes the other registers alike, whatever `DataDirA` holds. -/
theorem regsAfter_setDataDirA (i : Instr) (r : Registers) (v : Byte) :
    ∃ w, regsAfter i (r.setDataDir .a v) = (regsAfter i r).setDataDir .a w := by
  cases i with
  | wrPa hi stb d => exact storeData_a_setDataDirA r v d
  | wrPb hi stb d => exact ⟨v, congrArg Registers.recompute (storeData_b_setDataDirA r v d)⟩
  | wrCra hi stb d => exact ⟨v, rfl⟩
  | wrCrb hi stb d => exact ⟨v, rfl⟩
  | rdPa | rdCra | rdPb | rdCrb | rdFw | rdIostb | wrIosel | wrIostb => exact ⟨v, rfl⟩

/-- An event writes the other registers alike, whatever `DataDirA` holds. -/
theorem regsServed_setDataDirA (policy : RegResetPolicy) (n : Nat) (r : Registers) (v : Byte) (e : Event) :
    ∃ w, regsServed policy n (r.setDataDir .a v) e = (regsServed policy n r e).setDataDir .a w := by
  cases e with
  | cycle c => exact regsAfter_setDataDirA (decode c) r v
  | reset asserted =>
    cases asserted with
    | true => exact hostReset_setDataDirA policy n r v
    | false => exact ⟨v, rfl⟩
  | ext port m x => cases port <;> exact ⟨v, rfl⟩
  | wrPbRace hi stb d outcome =>
    obtain ⟨w, hw⟩ := hostReset_setDataDirA policy n (r.storeData .b d) v
    refine ⟨w, ?_⟩
    simp only [regsServed, Registers.afterRace, storeData_b_setDataDirA, hw, raceBank_setDataDirA]
    rfl

/-- One step of two machines that differ in `DataDirA` alone. -/
theorem step_setDataDirA {s s' : State} (h : step s = .next s') (v : Byte) :
    ∃ w, step (s.setRegs (s.regs.setDataDir .a v)) = .next (s'.setRegs (s'.regs.setDataDir .a w)) := by
  obtain ⟨hb, hm, rfl⟩ | ⟨hb, ha, rfl⟩ | ⟨e, rest, hr, ha, hw, hs⟩ := step_cases h
  · exact ⟨v, step_booting hb hm⟩
  · exact ⟨v, step_idle_eq hb ha⟩
  · obtain ⟨w, hregs⟩ := regsServed_setDataDirA s.params.regResetPolicy s.draws s.regs v e
    refine ⟨w, ?_⟩
    have hstep : step (s.setRegs (s.regs.setDataDir .a v)) = _ :=
      step_serves (hr.imp_right And.left) ha hw
    have hserve := serve_setRegs hs fun i => answer_setDataDirA i (s.takeTurn.setArrivals rest) v
    rw [serve_regs hs]
    exact hstep.trans (hserve.trans (congrArg (fun r => Host.Outcome.next (s'.setRegs r)) hregs))

/-! ### Machines that differ in idle control bits (10_state.md R22, R33) -/

/-- Two records that differ at most in control bits other than `ORSEL`: `SameButIdleControlBits` on the registers
alone. -/
def SameRegsButIdleBits (r r' : Registers) : Prop :=
  r' = { r with controlA := r'.controlA, controlB := r'.controlB } ∧
    ∀ p, orsel (r'.control p) = orsel (r.control p)

theorem SameRegsButIdleBits.setOutput {r r' : Registers} (h : SameRegsButIdleBits r r') (p : Port) (v : Byte) :
    SameRegsButIdleBits (r.setOutput p v) (r'.setOutput p v) := by
  obtain ⟨hr, ho⟩ := h
  exact ⟨by cases p <;> exact congrArg (Registers.setOutput _ v) hr, by simpa using ho⟩

theorem SameRegsButIdleBits.setDataDir {r r' : Registers} (h : SameRegsButIdleBits r r') (p : Port) (v : Byte) :
    SameRegsButIdleBits (r.setDataDir p v) (r'.setDataDir p v) := by
  obtain ⟨hr, ho⟩ := h
  exact ⟨by cases p <;> exact congrArg (Registers.setDataDir _ v) hr, by simpa using ho⟩

theorem SameRegsButIdleBits.setControl {r r' : Registers} (h : SameRegsButIdleBits r r') (p : Port) (c : Ctrl) :
    SameRegsButIdleBits (r.setControl p c) (r'.setControl p c) := by
  obtain ⟨hr, ho⟩ := h
  refine ⟨by cases p <;> exact congrArg (Registers.setControl _ c) hr, fun q => ?_⟩
  by_cases hq : q = p
  · simp [hq]
  · simpa [hq] using ho q

/-- A data write reaches the same register in both, because it looks at `ORSEL` alone (10_state.md R22). -/
theorem SameRegsButIdleBits.storeData {r r' : Registers} (h : SameRegsButIdleBits r r') (p : Port) (d : Byte) :
    SameRegsButIdleBits (r.storeData p d) (r'.storeData p d) := by
  simp only [Registers.storeData, h.2 p]
  split
  · exact h.setOutput p d
  · exact h.setDataDir p d

theorem SameRegsButIdleBits.recompute {r r' : Registers} (h : SameRegsButIdleBits r r') :
    SameRegsButIdleBits r.recompute r'.recompute := by
  obtain ⟨hr, ho⟩ := h
  exact ⟨congrArg Registers.recompute hr, fun p => by cases p; exacts [ho .a, ho .b]⟩

theorem SameRegsButIdleBits.regsAfter {r r' : Registers} (h : SameRegsButIdleBits r r') (i : Instr) :
    SameRegsButIdleBits (regsAfter i r) (regsAfter i r') := by
  cases i with
  | wrPa hi stb d => exact h.storeData .a d
  | wrPb hi stb d => exact (h.storeData .b d).recompute
  | wrCra hi stb d => exact h.setControl .a _
  | wrCrb hi stb d => exact h.setControl .b _
  | rdPa | rdCra | rdPb | rdCrb | rdFw | rdIostb | wrIosel | wrIostb => exact h

/-- Only the control reads respond a control register. -/
theorem SameRegsButIdleBits.answer {i : Instr} {s : State} {r : Registers} (h : SameRegsButIdleBits s.regs r)
    (ha : i.op ≠ .RD_CRA) (hb : i.op ≠ .RD_CRB) : answer (s.setRegs r) i = answer s i := by
  obtain ⟨hr, -⟩ := h
  rw [hr]
  cases i with
  | rdCra => exact absurd rfl ha
  | rdCrb => exact absurd rfl hb
  | rdPa | rdPb | rdFw | rdIostb | wrPa | wrCra | wrPb | wrCrb | wrIosel | wrIostb => rfl

/-- Two such machines are one with two such records. -/
theorem sameButIdleControlBits_iff (s t : State) :
    SameButIdleControlBits s t ↔ ∃ r, t = s.setRegs r ∧ SameRegsButIdleBits s.regs r := by
  constructor
  · rintro ⟨ht, ha, hb⟩
    exact ⟨t.regs, by rw [ht]; rfl, by rw [ht], fun p => by cases p; exacts [ha, hb]⟩
  · rintro ⟨r, rfl, hr, ho⟩
    exact ⟨congrArg s.setRegs hr, ho .a, ho .b⟩

end Sys2Proof.Safety

/-! ### The statements -/

namespace Sys2Proof.Proofs

open Sys2Proof.Machine Sys2Proof.Config Sys2Proof.Safety

/-- Settles O50: an event leaves the latch as it is or stores a value of the bank function. -/
theorem pageAlignedKept : Obligations.PageAlignedKept := by
  intro s t hs h
  obtain ⟨hregs, -, -⟩ | ⟨e, -, -, -, hregs, -, -⟩ := step_regs h
  · rwa [PageAligned, hregs]
  · rw [PageAligned, hregs]
    obtain hb | ⟨ob, db, hb⟩ := bankOffset_regsServed s.params.regResetPolicy s.draws s.regs e
    · rwa [hb]
    · rw [hb]
      exact fBank_pageAligned ob db

/-- Settles O52: of the events only a race, or a reset under another policy, breaks the latch, and a step leaves
the policy as it is and drops at most the head of the arrivals. -/
theorem latchConsistentKept : Obligations.LatchConsistentKept := by
  rintro s t ⟨hl, hz, hrace⟩ h
  obtain ⟨hregs, hp, ha⟩ | ⟨e, rest, -, harr, hregs, hp, ha⟩ := step_regs h
  · exact ⟨by rwa [latchConsistent_iff, hregs], by rwa [hp], by rwa [ha]⟩
  · rw [harr, List.all_cons, Bool.and_eq_true, Bool.not_eq_true'] at hrace
    obtain ⟨he, hrest⟩ := hrace
    refine ⟨?_, by rwa [hp], by rwa [ha]⟩
    rw [latchConsistent_iff, hregs, hz]
    exact latched_regsServed s.draws he hl

/-- Settles O55: the event a step serves leaves alone every field that R30 does not list it for. -/
theorem onlyListedWritersChangeAField : Obligations.OnlyListedWritersChangeAField := by
  intro f s t h
  obtain ⟨hregs, -, -⟩ | ⟨e, rest, hr, ha, hregs, -, -⟩ := step_regs h
  · rw [hregs]
    exact .inl (f.agrees_refl s.regs)
  · cases hf : f.writtenBy s.regs e with
    | true => exact .inr ⟨e, rest, hr, ha, hf⟩
    | false =>
      rw [hregs]
      exact .inl (Field.agrees_regsServed hf s.params.regResetPolicy s.draws)

/-- Settles O56, by induction on the number of steps: the relation is a simulation. -/
theorem hostNeverSeesDataDirA : Obligations.HostNeverSeesDataDirA := by
  intro k
  induction k with
  | zero =>
    intro s t s' hst h
    cases h
    obtain ⟨v, rfl⟩ := (sameButDataDirA_iff s t).1 hst
    exact ⟨_, rfl, hst, rfl⟩
  | succ k ih =>
    intro s t s' hst h
    obtain ⟨v, rfl⟩ := (sameButDataDirA_iff s t).1 hst
    obtain ⟨u, hu, hrun⟩ := step_of_run_succ h
    obtain ⟨w, hw⟩ := step_setDataDirA hu v
    rw [run_succ k hw]
    exact ih u _ s' ((sameButDataDirA_iff u _).2 ⟨w, rfl⟩) hrun

/-- Settles O22: the other operations respond alike on both records, and write them alike. -/
theorem idleControlBitsHaveNoEffect : Obligations.IdleControlBitsHaveNoEffect := by
  intro i s t s' hst ha hb h
  obtain ⟨r, rfl, hr⟩ := (sameButIdleControlBits_iff s t).1 hst
  refine ⟨_, exec_setRegs h (hr.answer ha hb), (sameButIdleControlBits_iff s' _).2 ⟨_, rfl, ?_⟩⟩
  rw [exec_regs h]
  exact hr.regsAfter i

/-- Settles O23: the two forms of the bank function, and its values from the second. -/
theorem bankFunction : Obligations.BankFunction := by
  refine ⟨fBank_toNat, fBank_eq_pageBase, fun ob db => ?_, fun n hn => ?_⟩
  · rw [fBank_eq_pageBase, pageBase_toNat]
    exact ⟨_, ((ob &&& db).extractLsb' 1 3).isLt, rfl⟩
  · refine ⟨BitVec.ofNat 8 (n * 2), 0x0E, ?_⟩
    revert n
    decide

/-- Settles O25: in a canonical image a listed cell is the one read, and a read finds only listed cells. -/
theorem firmwareImageBytes : Obligations.FirmwareImageBytes := by
  intro p hp
  refine ⟨fun i v h => ?_, fun i h => ?_⟩
  · rw [fwRead, memRead_of_mem hp h]
    rfl
  · have hnone : memRead p.fwImage i = none :=
      Option.eq_none_iff_forall_ne_some.2 fun v hv => h v (mem_of_memRead hv)
    rw [fwRead, hnone]
    rfl

/-- Settles O54: no step changes a parameter, and the image is one. -/
theorem firmwareImageNeverWritten : Obligations.FirmwareImageNeverWritten := by
  intro s t h
  have hp := step_params h
  exact ⟨hp, fun i => by rw [hp]⟩

/-- Settles O26: the loop serves an admitted cycle by executing what it decodes to. -/
theorem stepRunsDecodedCycle : Obligations.StepRunsDecodedCycle := by
  intro s c rest hb ha hw
  exact step_admitted hb ha hw

/-- Settles O34: the power-on values of R35. -/
theorem powerOnValues : Obligations.PowerOnValues := ⟨rfl, rfl⟩

/-- Settles O51: the latch holds 0 at power-on. -/
theorem pageAlignedAtReset : Obligations.PageAlignedAtReset := by
  unfold Obligations.PageAlignedAtReset PageAligned
  decide

/-- Settles O53: the bank function of the zero registers is 0, and nothing has arrived. -/
theorem latchConsistentAtReset : Obligations.LatchConsistentAtReset := ⟨fBank_zero.symm, rfl, rfl⟩

end Sys2Proof.Proofs

/-! SUPPORT. Proofs of the statements about memory and the bus regions (family 20_memory): the rules they
share, then the statements. -/

/-! ### What an operation responds and leaves unchanged -/

namespace Sys2Proof.Machine

open Config

theorem exec_responses {i : Instr} {s t : State} (h : exec i s = .next t) :
    t.responses = s.responses ++ answer s i := by
  rw [exec_eq] at h
  cases h
  rfl

theorem exec_draws {i : Instr} {s t : State} (h : exec i s = .next t) : t.draws = s.draws + drawsTaken i := by
  rw [exec_eq] at h
  cases h
  rfl

/-- A read writes no register (20_memory.md R61). -/
theorem regsAfter_of_isRead {i : Instr} (h : i.isRead = true) (r : Registers) : regsAfter i r = r := by
  cases i with
  | rdPa | rdCra | rdPb | rdCrb | rdFw | rdIostb => rfl
  | wrPa | wrCra | wrPb | wrCrb | wrIosel | wrIostb => cases h

/-- A read responds one byte (70_reset_and_hazards.md R214). -/
theorem answer_of_isRead {i : Instr} (h : i.isRead = true) (s : State) : ∃ v, answer s i = [v] := by
  cases i with
  | rdPa | rdCra | rdPb | rdCrb | rdFw | rdIostb => exact ⟨_, rfl⟩
  | wrPa | wrCra | wrPb | wrCrb | wrIosel | wrIostb => cases h

/-- A write responds nothing and takes no draw. -/
theorem answer_of_isWrite {i : Instr} (h : i.isRead = false) (s : State) : answer s i = [] ∧ drawsTaken i = 0 := by
  cases i with
  | rdPa | rdCra | rdPb | rdCrb | rdFw | rdIostb => cases h
  | wrPa | wrCra | wrPb | wrCrb | wrIosel | wrIostb => exact ⟨rfl, rfl⟩

/-- But for `RD_IOSTB` an operation's response depends on the registers and the parameters alone. -/
theorem answer_congr {i : Instr} {s t : State} (hop : i.op ≠ .RD_IOSTB) (hr : t.regs = s.regs)
    (hp : t.params = s.params) : answer t i = answer s i := by
  cases i with
  | rdPa | rdCra | rdPb | rdCrb | rdFw => simp only [answer, hr, hp]
  | rdIostb => exact absurd rfl hop
  | wrPa | wrCra | wrPb | wrCrb | wrIosel | wrIostb => rfl

/-! ### What a bus region looks at of a cycle (20_memory.md R53 to R55) -/

/-- Addresses with the same low `n` bits agree in each of them. -/
theorem getLsbD_of_extract_eq {n k : Nat} {a a' : Addr} (h : a.extractLsb' 0 n = a'.extractLsb' 0 n) (hk : k < n) :
    a.getLsbD k = a'.getLsbD k := by
  have hbit := congrArg (fun x => x.getLsbD k) h
  simpa [hk] using hbit

/-- The port a device-select address selects, by `A[1]`. -/
def devicePort (a : Addr) : Port := if a.getLsbD 1 then .b else .a

/-- A device-select read looks at `A[1:0]` alone: the port, and control or data. -/
theorem exec_decodeDeviceRead (c : BusCycle) (s : State) : exec (decodeDeviceRead c) s =
    .next (if c.a.getLsbD 0 then readControl (devicePort c.a) s else readData (devicePort c.a) s) := by
  unfold decodeDeviceRead devicePort
  cases c.a.getLsbD 1 <;> cases c.a.getLsbD 0 <;> rfl

/-- A device-select write looks at `A[1:0]` and the data alone. -/
theorem exec_decodeDeviceWrite (c : BusCycle) (s : State) : exec (decodeDeviceWrite c) s =
    .next (if c.a.getLsbD 0 then writeControl (devicePort c.a) c.d s else writeData (devicePort c.a) c.d s) := by
  unfold decodeDeviceWrite devicePort
  cases c.a.getLsbD 1 <;> cases c.a.getLsbD 0 <;> rfl

/-- A firmware read ignores `A[11:8]` (20_memory.md R55). -/
theorem exec_rdFw (page : BitVec 4) (off : Byte) (s : State) : exec (.rdFw page off) s = .next (readFirmware off s) :=
  rfl

/-- A write of the I/O-select window has no effect (41_io_select.md R142). -/
theorem exec_wrIosel (a : Addr) (d : Byte) (s : State) : exec (.wrIosel a d) s = .next s := rfl

/-! ### The firmware index (20_memory.md R57) -/

/-- In a page-aligned bank the index is the page number above the offset. -/
theorem fwIndex_append (off : Byte) (n : BitVec 3) : fwIndex off (n ++ 0#8) = n ++ off := by
  have hoff : off.setWidth 11 = 0#3 ++ off := BitVec.setWidth_eq_append (by decide)
  rw [fwIndex, hoff, BitVec.or_append, BitVec.zero_or, BitVec.or_zero]

/-- The registers after a data write of port B, as the bank function sees them. -/
theorem portB_after_storeData (d : Byte) (r : Registers) :
    (r.storeData .b d).outputB &&& (r.storeData .b d).dataDirB =
      if r.controlB.getLsbD 2 then d &&& r.dataDirB else r.outputB &&& d := by
  obtain ⟨ho, hr⟩ | ⟨ho, hr⟩ := r.storeData_eq .b d
  · rw [hr, show r.controlB.getLsbD 2 = true from ho]
    rfl
  · rw [hr, show r.controlB.getLsbD 2 = false from ho]
    rfl

/-! ### What the gate refuses -/

/-- The parameters admit a cycle exactly when they admit its operation. -/
theorem wf_decode (p : Params) (c : BusCycle) : (decode c).wf p = Event.wf p (.cycle c) := by
  cases hio : c.io with
  | true =>
    rw [Event.wf, hio, Bool.true_or]
    cases hr : c.rd with
    | true =>
      cases hs : c.stb with
      | true => rw [decode_strobeRead hr hio hs, Instr.wf]
      | false => rw [decode_fwRead hr hio hs, Instr.wf]
    | false =>
      cases hs : c.stb with
      | true => rw [decode_strobeWrite hr hio hs, Instr.wf]
      | false => rw [decode_windowWrite hr hio hs, Instr.wf]
  | false =>
    have hread : (decodeDeviceRead c).wf p = p.admitsHighBits (c.a.extractLsb' 2 10) := by
      unfold decodeDeviceRead
      split <;> rfl
    have hwrite : (decodeDeviceWrite c).wf p = p.admitsHighBits (c.a.extractLsb' 2 10) := by
      unfold decodeDeviceWrite
      split <;> rfl
    rw [Event.wf, hio, Bool.false_or]
    cases hr : c.rd with
    | true => rw [decode_deviceRead hr hio, hread]
    | false => rw [decode_deviceWrite hr hio, hwrite]

/-- The loop with an event to refuse. -/
theorem step_refused {s : State} {e : Event} {rest : List Event} {r : Refusal} (hb : s.boot = .looping)
    (ha : s.arrivals = e :: rest) (hg : gate s.params e = some r) : step s = .refused r := by
  simp only [step_event hb ha, hg]

/-- Under `refuse` a device-select cycle with `A[3:2] != 0` is refused (20_memory.md R54). -/
theorem gate_devselHighBits {p : Params} {c : BusCycle} (hp : p.devselHighBits = .refuse) (hio : c.io = false)
    (ha : c.a.extractLsb' 2 2 ≠ 0) : gate p (.cycle c) = some .devselHighBits := by
  have hlow : (c.a.extractLsb' 2 10).extractLsb' 0 2 = c.a.extractLsb' 2 2 := by
    apply BitVec.eq_of_getLsbD_eq
    intro k hk
    simp [hk, show k < 10 by omega]
  have href : devselRefused p (c.a.extractLsb' 2 10) = true := by
    simpa [devselRefused, hlow, hp] using ha
  simp [gate, hio, href]

/-- A mutation with a mask outside the external agent's bits is refused (42_external_port.md R160, R161). -/
theorem gate_extMask {p : Params} {port : Port} {m : Byte} (hm : m &&& ~~~extMask p port ≠ 0) (v : Byte) :
    gate p (.ext port m v) = some (.extMask port) :=
  if_neg hm

end Sys2Proof.Machine

/-! ### The statements about memory -/

namespace Sys2Proof.Proofs

open Sys2Proof.Machine Sys2Proof.Config Sys2Proof.Safety

/-- Settles O17: from the operation's whole effect, by whether it reads. -/
theorem readsAnswerOnceAndChangeNothing : Obligations.ReadsAnswerOnceAndChangeNothing := by
  intro i s
  obtain ⟨t, ht⟩ := exec_next i s
  refine ⟨t, ht, fun hr => ⟨?_, ?_⟩, fun hw => ?_, exec_frame ht⟩
  · rw [exec_regs ht, regsAfter_of_isRead hr]
  · obtain ⟨v, hv⟩ := answer_of_isRead hr s
    exact ⟨v, by rw [exec_responses ht, hv]⟩
  · obtain ⟨hnone, hdraws⟩ := answer_of_isWrite hw s
    exact ⟨by rw [exec_responses ht, hnone, List.append_nil], by rw [exec_draws ht, hdraws, Nat.add_zero]⟩

/-- Settles O18: the first read leaves the registers and the parameters, which are all the second depends on. -/
theorem readsRepeat : Obligations.ReadsRepeat := by
  intro i s t hr hop h
  obtain ⟨v, hv⟩ := answer_of_isRead hr s
  obtain ⟨u, hu⟩ := exec_next i t
  have hregs : t.regs = s.regs := by rw [exec_regs h, regsAfter_of_isRead hr]
  have hagain : answer t i = [v] := by rw [answer_congr hop hregs (exec_frame h).1, hv]
  have hfirst : t.responses = s.responses ++ [v] := by rw [exec_responses h, hv]
  refine ⟨v, u, hfirst, hu, ?_⟩
  rw [exec_responses hu, hfirst, hagain, List.append_assoc]
  rfl

/-- Settles O20: what a device-select cycle does is given by `A[1:0]`, `RD` and `D`. -/
theorem deviceSelectIgnoresHighBits : Obligations.DeviceSelectIgnoresHighBits := by
  intro c c' s hio hio' hrd hd ha
  have h0 : c.a.getLsbD 0 = c'.a.getLsbD 0 := getLsbD_of_extract_eq ha (by decide)
  have hport : devicePort c.a = devicePort c'.a := by
    rw [devicePort, devicePort, getLsbD_of_extract_eq ha (show 1 < 2 by decide)]
  cases hr : c.rd with
  | true =>
    rw [decode_deviceRead hr hio, decode_deviceRead (hrd ▸ hr) hio', exec_decodeDeviceRead, exec_decodeDeviceRead,
      h0, hport]
  | false =>
    rw [decode_deviceWrite hr hio, decode_deviceWrite (hrd ▸ hr) hio', exec_decodeDeviceWrite,
      exec_decodeDeviceWrite, h0, hport, hd]

/-- Settles O21: a firmware read looks at `A[7:0]` alone, and a write of the window does nothing. -/
theorem windowIgnoresHighAddressBits : Obligations.WindowIgnoresHighAddressBits := by
  intro c c' s hio hio' hs hs' hrd ha
  cases hr : c.rd with
  | true => rw [decode_fwRead hr hio hs, decode_fwRead (hrd ▸ hr) hio' hs', exec_rdFw, exec_rdFw, ha]
  | false => rw [decode_windowWrite hr hio hs, decode_windowWrite (hrd ▸ hr) hio' hs', exec_wrIosel, exec_wrIosel]

/-- Settles O24: an aligned latch is its page number above eight zero bits. -/
theorem firmwareIndexIsPageAndOffset : Obligations.FirmwareIndexIsPageAndOffset := by
  intro s off h
  have hbank : s.regs.bankOffset = s.regs.bankOffset.extractLsb' 8 3 ++ 0#8 :=
    calc s.regs.bankOffset = s.regs.bankOffset.extractLsb' 8 3 ++ s.regs.bankOffset.extractLsb' 0 8 :=
          (BitVec.extractLsb'_append_extractLsb' (w := 3) (len := 8)).symm
      _ = s.regs.bankOffset.extractLsb' 8 3 ++ 0#8 := by rw [h]; rfl
  refine ⟨?_, bank_lt_fwSize s.params _⟩
  conv_lhs => rw [hbank]
  exact fwIndex_append off _

/-- Settles O30: the gate lets through what is admitted, and serving that answers a next state. -/
theorem refusesExactlyWhatIsNotAdmitted : Obligations.RefusesExactlyWhatIsNotAdmitted := by
  intro s e rest hb ha
  constructor
  · intro hw
    obtain ⟨t, ht, -⟩ := serve_next e (s.setArrivals rest)
    exact ⟨t, (step_admitted hb ha hw).trans ht⟩
  · intro hw
    have hg : gate s.params e ≠ none := fun hnone => by simp [(gate_eq_none s.params e).1 hnone] at hw
    obtain ⟨r, hr⟩ := Option.ne_none_iff_exists'.1 hg
    exact ⟨r, step_refused hb ha hr⟩

/-- Settles O31, by the refusals of the gate. -/
theorem refusalsByName : Obligations.RefusalsByName := by
  refine ⟨fun s c rest hb ha hp hio hc => ?_, fun s m v rest hb ha hm => ?_, fun s m v rest hb ha hm => ?_⟩
  · exact step_refused hb ha (gate_devselHighBits hp hio hc)
  · exact step_refused hb ha (gate_extMask (port := .a) hm v)
  · exact step_refused hb ha (gate_extMask (port := .b) hm v)

/-- Settles O45: the write stores the bank function of the registers it leaves, in the page-number form, and the
read that follows is served with that latch. -/
theorem bankChangeSeenByNextFirmwareRead : Obligations.BankChangeSeenByNextFirmwareRead := by
  intro s w c hi stb d page off rest hb ha hw hdw hdc
  obtain ⟨t, ht⟩ := exec_next (.wrPb hi stb d) (s.setArrivals (.cycle c :: rest))
  obtain ⟨u, hu⟩ := exec_next (.rdFw page off) (t.setArrivals rest)
  obtain ⟨hparams, hboot, harr, -⟩ := exec_frame ht
  have hwrite : step s = .next t := by rw [stepRunsDecodedCycle s w _ hb ha hw, hdw]; exact ht
  have hc : Event.wf t.params (.cycle c) = true := by rw [← wf_decode, hdc]; rfl
  have hread : step t = .next u := by
    rw [stepRunsDecodedCycle t c rest (hboot.trans hb) harr hc, hdc]; exact hu
  have hbank : t.regs.bankOffset =
      (if s.regs.controlB.getLsbD 2 then d &&& s.regs.dataDirB else s.regs.outputB &&& d).extractLsb' 1 3 ++ 0#8 := by
    rw [exec_regs ht, regsAfter, Registers.bankOffset_recompute, fBank_eq_pageBase, pageBase, portB_after_storeData]
    rfl
  refine ⟨u, by rw [run_succ 1 hwrite, run_succ 0 hread]; rfl, ?_⟩
  rw [exec_responses hu]
  simp only [State.setArrivals_responses, answer, State.setArrivals_regs, State.setArrivals_params, hbank,
    fwIndex_append, hparams, exec_responses ht, List.append_nil]

end Sys2Proof.Proofs

/-! SUPPORT. Proofs of the statements about the encoding (family 30_encoding): the rules they share, then the
statements. -/

/-! ### The device-select operations by register number (30_encoding.md R81) -/

namespace Sys2Proof

/-- The device-select read of the register `A[1:0]`. -/
def deviceRead (hi : HighBits) (reg : BitVec 2) (stb : Bool) : Instr :=
  match reg.getLsbD 1, reg.getLsbD 0 with
  | false, false => .rdPa hi stb
  | false, true => .rdCra hi stb
  | true, false => .rdPb hi stb
  | true, true => .rdCrb hi stb

/-- The device-select write of the register `A[1:0]`. -/
def deviceWrite (hi : HighBits) (reg : BitVec 2) (stb : Bool) (d : Byte) : Instr :=
  match reg.getLsbD 1, reg.getLsbD 0 with
  | false, false => .wrPa hi stb d
  | false, true => .wrCra hi stb d
  | true, false => .wrPb hi stb d
  | true, true => .wrCrb hi stb d

/-- A bit of the register number `A[1:0]`. -/
theorem reg_bit (a : Addr) {k : Nat} (hk : k < 2) : (a.extractLsb' 0 2).getLsbD k = a.getLsbD k := by
  simp [hk]

theorem decodeDeviceRead_eq (c : BusCycle) :
    decodeDeviceRead c = deviceRead (c.a.extractLsb' 2 10) (c.a.extractLsb' 0 2) c.stb := by
  rw [deviceRead, reg_bit c.a (show 1 < 2 by decide), reg_bit c.a (show 0 < 2 by decide)]
  rfl

theorem decodeDeviceWrite_eq (c : BusCycle) :
    decodeDeviceWrite c = deviceWrite (c.a.extractLsb' 2 10) (c.a.extractLsb' 0 2) c.stb c.d := by
  rw [deviceWrite, reg_bit c.a (show 1 < 2 by decide), reg_bit c.a (show 0 < 2 by decide)]
  rfl

/-- The four registers of a device-select region (20_memory.md R53). -/
theorem reg_cases (reg : BitVec 2) : reg = 0 ∨ reg = 1 ∨ reg = 2 ∨ reg = 3 := by
  revert reg
  decide

theorem op_deviceRead (hi : HighBits) (reg : BitVec 2) (stb : Bool) :
    (deviceRead hi reg stb).op = [Op.RD_PA, .RD_CRA, .RD_PB, .RD_CRB].getD reg.toNat .RD_PA := by
  obtain rfl | rfl | rfl | rfl := reg_cases reg <;> rfl

theorem op_deviceWrite (hi : HighBits) (reg : BitVec 2) (stb : Bool) (d : Byte) :
    (deviceWrite hi reg stb d).op = [Op.WR_PA, .WR_CRA, .WR_PB, .WR_CRB].getD reg.toNat .WR_PA := by
  obtain rfl | rfl | rfl | rfl := reg_cases reg <;> rfl

theorem op_decode_deviceRead {c : BusCycle} (hr : c.rd = true) (hi : c.io = false) :
    (decode c).op = [Op.RD_PA, .RD_CRA, .RD_PB, .RD_CRB].getD (c.a.extractLsb' 0 2).toNat .RD_PA := by
  rw [decode_deviceRead hr hi, decodeDeviceRead_eq, op_deviceRead]

theorem encode_deviceRead (hi : HighBits) (reg : BitVec 2) (stb : Bool) :
    encode (deviceRead hi reg stb) = deviceCycle true hi reg stb 0 := by
  obtain rfl | rfl | rfl | rfl := reg_cases reg <;> rfl

theorem op_decode_deviceWrite {c : BusCycle} (hr : c.rd = false) (hi : c.io = false) :
    (decode c).op = [Op.WR_PA, .WR_CRA, .WR_PB, .WR_CRB].getD (c.a.extractLsb' 0 2).toNat .WR_PA := by
  rw [decode_deviceWrite hr hi, decodeDeviceWrite_eq, op_deviceWrite]

theorem encode_deviceWrite (hi : HighBits) (reg : BitVec 2) (stb : Bool) (d : Byte) :
    encode (deviceWrite hi reg stb d) = deviceCycle false hi reg stb d := by
  obtain rfl | rfl | rfl | rfl := reg_cases reg <;> rfl

/-- The register number of `{hi, reg}`. -/
theorem extract_low_append (hi : HighBits) (reg : BitVec 2) : (hi ++ reg : Addr).extractLsb' 0 2 = reg :=
  BitVec.extractLsb'_append_eq_right

/-- A device-select read cycle decodes to the read of its register. -/
theorem decode_deviceCycle_read (hi : HighBits) (reg : BitVec 2) (stb : Bool) (d : Byte) :
    decode (deviceCycle true hi reg stb d) = deviceRead hi reg stb := by
  rw [decode_deviceRead rfl rfl, decodeDeviceRead_eq, deviceCycle, extract_high_append, extract_low_append]

/-- A device-select write cycle decodes to the write of its register. -/
theorem decode_deviceCycle_write (hi : HighBits) (reg : BitVec 2) (stb : Bool) (d : Byte) :
    decode (deviceCycle false hi reg stb d) = deviceWrite hi reg stb d := by
  rw [decode_deviceWrite rfl rfl, decodeDeviceWrite_eq, deviceCycle, extract_high_append, extract_low_append]

/-- An I/O-select read cycle decodes to the two parts of its address. -/
theorem decode_ioCycle_fwRead (page : BitVec 4) (off : Byte) :
    decode (ioCycle true false (page ++ off) 0) = .rdFw page off := by
  rw [decode_fwRead rfl rfl rfl, ioCycle, BitVec.extractLsb'_append_eq_left, BitVec.extractLsb'_append_eq_right]

/-! ### Encode and decode on cycles -/

theorem decode_encode (i : Instr) : decode (encode i) = i := by
  cases i with
  | rdPa hi stb => exact decode_deviceCycle_read hi 0 stb 0
  | rdCra hi stb => exact decode_deviceCycle_read hi 1 stb 0
  | rdPb hi stb => exact decode_deviceCycle_read hi 2 stb 0
  | rdCrb hi stb => exact decode_deviceCycle_read hi 3 stb 0
  | wrPa hi stb d => exact decode_deviceCycle_write hi 0 stb d
  | wrCra hi stb d => exact decode_deviceCycle_write hi 1 stb d
  | wrPb hi stb d => exact decode_deviceCycle_write hi 2 stb d
  | wrCrb hi stb d => exact decode_deviceCycle_write hi 3 stb d
  | rdFw page off => exact decode_ioCycle_fwRead page off
  | rdIostb a => exact decode_strobeRead rfl rfl rfl
  | wrIosel a d => exact decode_windowWrite rfl rfl rfl
  | wrIostb a d => exact decode_strobeWrite rfl rfl rfl

theorem encode_decode (c : BusCycle) : encode (decode c) = { c with d := if c.rd then 0 else c.d } := by
  obtain ⟨a, io, stb, rd, d⟩ := c
  cases io with
  | false =>
    cases rd with
    | true =>
      rw [decode_deviceRead rfl rfl, decodeDeviceRead_eq, encode_deviceRead, deviceCycle, append_extract]
      rfl
    | false =>
      rw [decode_deviceWrite rfl rfl, decodeDeviceWrite_eq, encode_deviceWrite, deviceCycle, append_extract]
      rfl
  | true =>
    cases rd with
    | true =>
      cases stb with
      | true => rw [decode_strobeRead rfl rfl rfl]; rfl
      | false =>
        have ha : (a.extractLsb' 8 4 ++ a.extractLsb' 0 8 : Addr) = a :=
          BitVec.extractLsb'_append_extractLsb' (w := 4) (len := 8)
        rw [decode_fwRead rfl rfl rfl, encode, ha]
        rfl
    | false =>
      cases stb with
      | true => rw [decode_strobeWrite rfl rfl rfl]; rfl
      | false => rw [decode_windowWrite rfl rfl rfl]; rfl

/-! ### The record in bytes (log entry 9) -/

/-- The record of a cycle word and a data byte. -/
def recordBytes (cw : CycleWord) (d : Byte) : List Byte :=
  [cw.extractLsb' 0 8, (cw.extractLsb' 8 7).setWidth 8, d]

theorem encodeBytes_eq (i : Instr) : encodeBytes i = recordBytes (encode i).word (encode i).d := rfl

/-- A record gives its cycle back: bit 15 is clear, and the two bytes hold the whole word. -/
theorem cycleOfBytes_recordBytes (cw : CycleWord) (d : Byte) (rest : List Byte) :
    cycleOfBytes (recordBytes cw d ++ rest) = .ok (BusCycle.ofWord cw d, rest) := by
  have hbit15 : ((cw.extractLsb' 8 7).setWidth 8).getLsbD 7 = false := by simp
  have hhigh : ((cw.extractLsb' 8 7).setWidth 8).extractLsb' 0 7 = cw.extractLsb' 8 7 := by
    apply BitVec.eq_of_getLsbD_eq
    intro k hk
    simp [hk, show k < 8 by omega]
  have hword : (cw.extractLsb' 8 7 ++ cw.extractLsb' 0 8 : CycleWord) = cw :=
    BitVec.extractLsb'_append_extractLsb' (w := 7) (len := 8)
  simp only [recordBytes, List.cons_append, List.nil_append, cycleOfBytes, hbit15, hhigh, hword]
  rfl

theorem decodeBytes_recordBytes (cw : CycleWord) (d : Byte) (rest : List Byte) :
    decodeBytes (recordBytes cw d ++ rest) = .ok (decode (BusCycle.ofWord cw d), rest) := by
  rw [decodeBytes, cycleOfBytes_recordBytes]

theorem decodeBytes_encodeBytes (i : Instr) (rest : List Byte) :
    decodeBytes (encodeBytes i ++ rest) = .ok (i, rest) := by
  rw [encodeBytes_eq, decodeBytes_recordBytes, BusCycle.ofWord_word, decode_encode]

/-- The table's number of a cycle word is the record with data byte 0. -/
theorem tableBytes_word (cw : CycleWord) : tableBytes 16 cw.toNat = recordBytes cw 0 := by
  have hlt := cw.isLt
  have hlow : BitVec.ofNat 8 (cw.toNat % 2 ^ 16) = cw.extractLsb' 0 8 := by
    apply BitVec.eq_of_toNat_eq
    rw [BitVec.toNat_ofNat, BitVec.extractLsb'_toNat, Nat.shiftRight_zero]
    omega
  have hhigh : BitVec.ofNat 8 (cw.toNat % 2 ^ 16 / 2 ^ 8) = (cw.extractLsb' 8 7).setWidth 8 := by
    apply BitVec.eq_of_toNat_eq
    rw [BitVec.toNat_ofNat, BitVec.toNat_setWidth, BitVec.extractLsb'_toNat, Nat.shiftRight_eq_div_pow]
    omega
  have hdata : BitVec.ofNat 8 (cw.toNat % 2 ^ 16 / 2 ^ 16) = 0 := by
    rw [Nat.div_eq_of_lt (Nat.mod_lt _ (by decide))]
    rfl
  rw [tableBytes, hlow, hhigh, hdata, recordBytes]

theorem cycleOfTableWord_word (cw : CycleWord) : cycleOfTableWord 16 cw.toNat = some (BusCycle.ofWord cw 0) := by
  rw [cycleOfTableWord, tableBytes_word, ← List.append_nil (recordBytes cw 0), cycleOfBytes_recordBytes]

theorem decodeTableWord_word (cw : CycleWord) :
    decodeTableWord 16 cw.toNat = some (decode (BusCycle.ofWord cw 0)) := by
  rw [decodeTableWord, tableBytes_word, ← List.append_nil (recordBytes cw 0), decodeBytes_recordBytes]

/-! ### The bits that classify a cycle word (30_encoding.md R83, R84) -/

/-- The cycle with every bit cleared that the classification does not look at: what is left are `RD`, `STB`,
`IO` and `A[1:0]`. -/
def BusCycle.classBits (c : BusCycle) : BusCycle where
  a := 0#10 ++ c.a.extractLsb' 0 2
  io := c.io
  stb := c.stb
  rd := c.rd
  d := 0

theorem BusCycle.word_classBits (c : BusCycle) : c.classBits.word = c.word &&& 0x7003 := by
  have hmask : ∀ k < 15, (0x7003 : CycleWord).getLsbD k = decide (k < 2 ∨ 12 ≤ k) := by decide
  apply BitVec.eq_of_getLsbD_eq
  intro k hk
  have hbit : (0#10 ++ c.a.extractLsb' 0 2 : Addr).getLsbD k = (decide (k < 2) && c.a.getLsbD k) := by
    rw [bit_append]
    by_cases h : k < 2 <;> simp [h]
  rw [BitVec.getLsbD_and, word_bit, word_bit, hmask k hk, classBits]
  by_cases h : k < 12
  · rw [if_pos h, if_pos h, hbit, Bool.and_comm]
    simp [show ¬12 ≤ k by omega]
  · simp [h, show 12 ≤ k by omega]

/-- The masks of the table lie inside the classifying bits. -/
theorem mask_opTable : ∀ r ∈ opTable, 0x7003 &&& r.mask = r.mask := by decide

/-- A row of the table sees the classifying bits of a word alone. -/
theorem and_mask_classBits {r : OpRow} (hr : r ∈ opTable) (cw : CycleWord) (d : Byte) :
    (BusCycle.ofWord cw d).classBits.word &&& r.mask = cw &&& r.mask := by
  rw [BusCycle.word_classBits, BusCycle.word_ofWord, BitVec.and_assoc, mask_opTable r hr]

/-- The decoder finds the operation by the classifying bits alone. -/
theorem op_decode_classBits (c : BusCycle) : (decode c.classBits).op = (decode c).op := by
  have hreg : c.classBits.a.extractLsb' 0 2 = c.a.extractLsb' 0 2 := extract_low_append 0 _
  cases hio : c.io with
  | false =>
    cases hr : c.rd with
    | true =>
      rw [op_decode_deviceRead hr hio, op_decode_deviceRead (c := c.classBits) hr hio, hreg]
    | false =>
      rw [op_decode_deviceWrite hr hio, op_decode_deviceWrite (c := c.classBits) hr hio, hreg]
  | true =>
    cases hr : c.rd <;> cases hs : c.stb
    · rw [decode_windowWrite hr hio hs, decode_windowWrite (c := c.classBits) hr hio hs]; rfl
    · rw [decode_strobeWrite hr hio hs, decode_strobeWrite (c := c.classBits) hr hio hs]; rfl
    · rw [decode_fwRead hr hio hs, decode_fwRead (c := c.classBits) hr hio hs]; rfl
    · rw [decode_strobeRead hr hio hs, decode_strobeRead (c := c.classBits) hr hio hs]; rfl

/-- The table and the decoder agree on each of the 32 values of the classifying bits. -/
theorem classBits_match_iff : ∀ r ∈ opTable, ∀ (reg : BitVec 2) (io stb rd : Bool),
    (BusCycle.word ⟨0#10 ++ reg, io, stb, rd, 0⟩ &&& r.mask = r.pattern ↔
      (decode ⟨0#10 ++ reg, io, stb, rd, 0⟩).op = r.op) := by
  decide

/-- No operation has two rows, and each has one. -/
theorem opTable_filter_op (o : Op) : (opTable.filter fun r => r.op = o).length = 1 := by cases o <;> rfl

/-- A word has the mask and match of a row exactly when it decodes to the row's operation. -/
theorem and_mask_iff {r : OpRow} (hr : r ∈ opTable) (cw : CycleWord) (d : Byte) :
    cw &&& r.mask = r.pattern ↔ (decode (BusCycle.ofWord cw d)).op = r.op := by
  rw [← and_mask_classBits hr cw d, ← op_decode_classBits]
  exact classBits_match_iff r hr _ _ _ _

end Sys2Proof

/-! ### The bus lines (30_encoding.md R88) -/

namespace Sys2Proof.Machine

/-- A base with its low 12 bits clear gives the flags, and leaves the address. -/
theorem lineCycle_eq {base : CycleWord} (hbase : base.extractLsb' 0 12 = 0) (a : Addr) (d : Byte) :
    lineCycle base a d = .cycle ⟨a, base.getLsbD 12, base.getLsbD 13, base.getLsbD 14, d⟩ := by
  have haddr : (base ||| a.setWidth 15).extractLsb' 0 12 = a := by
    rw [BitVec.extractLsb'_or, hbase]
    apply BitVec.eq_of_getLsbD_eq
    intro k hk
    simp [hk, show k < 15 by omega]
  have hflag : ∀ k, 12 ≤ k → (base ||| a.setWidth 15).getLsbD k = base.getLsbD k := by
    intro k hk
    simp [BitVec.getLsbD_of_ge a k hk]
  rw [lineCycle, BusCycle.ofWord, haddr, hflag 12 (by decide), hflag 13 (by decide), hflag 14 (by decide)]

/-- The line of a device-select write. -/
theorem lineEvent_wrDev (a : Addr) (d : Byte) : lineEvent (.wrDev a d) = .cycle ⟨a, false, false, false, d⟩ :=
  lineCycle_eq (base := 0x0000) (by decide) a d

/-! ### Runs of device-select writes (30_encoding.md R90) -/

/-- The lines of a pseudo-operation: a control byte, then a data byte, to one port (30_encoding.md R90). -/
def portLines (hi : HighBits) (p : Port) (c d : Byte) : List TraceLine :=
  [.wrDev (controlAddr hi p) c, .wrDev (dataAddr hi p) d]

section

variable {s : State} {hi : HighBits} {reg : BitVec 2} {p : Port} {c d v : Byte} {rest : List Event}
  (hb : s.boot = .looping) (hw : s.params.admitsHighBits hi = true)

include hb hw

/-- The loop with an admitted line of a device-select write to serve. -/
theorem step_wrDev (ha : s.arrivals = lineEvent (.wrDev (hi ++ reg) d) :: rest) :
    step s = exec (deviceWrite hi reg false d) (s.setArrivals rest) := by
  rw [lineEvent_wrDev] at ha
  rw [step_admitted hb ha (by simpa [Event.wf, extract_high_append] using hw)]
  exact congrArg (exec · _) (decode_deviceCycle_write hi reg false d)

/-- A control line stores its six bits. -/
theorem step_controlLine (ha : s.arrivals = lineEvent (.wrDev (controlAddr hi p) c) :: rest) :
    step s = .next (writeControl p c (s.setArrivals rest)) := by
  cases p with
  | a => exact step_wrDev (reg := 1) hb hw ha
  | b => exact step_wrDev (reg := 3) hb hw ha

/-- A data line writes the register `ORSEL` selects. -/
theorem step_dataLine (ha : s.arrivals = lineEvent (.wrDev (dataAddr hi p) d) :: rest) :
    step s = .next (writeData p d (s.setArrivals rest)) := by
  cases p with
  | a => exact step_wrDev (reg := 0) hb hw ha
  | b => exact step_wrDev (reg := 2) hb hw ha

/-- A control line and a data line: the data goes where the control byte before it says. -/
theorem run_portLines (ha : s.arrivals = (portLines hi p c d).map lineEvent ++ rest) :
    core.run 2 s = .next ((s.setArrivals rest).setRegs
      (((s.regs.setControl p (ctrlOfData c)).storeData p d).settle p)) := by
  have hcontrol := step_controlLine hb hw ha
  have hdata : step (writeControl p c (s.setArrivals (lineEvent (.wrDev (dataAddr hi p) d) :: rest))) = _ :=
    step_dataLine hb hw rfl
  rw [run_succ 1 hcontrol]
  exact run_succ 0 hdata

/-- `SETDDR` writes the data-direction register (30_encoding.md R90). -/
theorem run_setDdr (ha : s.arrivals = (setDdr hi p v).map lineEvent ++ rest) :
    core.run 2 s = .next ((s.setArrivals rest).setRegs (((s.regs.setControl p 0).setDataDir p v).settle p)) := by
  rw [run_portLines (c := 0x00) hb hw ha, Registers.storeData, Registers.control_setControl]
  rfl

/-- `SETOR` writes the output register (30_encoding.md R90). -/
theorem run_setOr (ha : s.arrivals = (setOr hi p v).map lineEvent ++ rest) :
    core.run 2 s = .next ((s.setArrivals rest).setRegs (((s.regs.setControl p 4).setOutput p v).settle p)) := by
  rw [run_portLines (c := 0x04) hb hw ha, Registers.storeData, Registers.control_setControl]
  rfl

end

/-- A run goes on from where a shorter one ends. -/
theorem run_add {m : Nat} {s t : State} (h : core.run m s = .next t) (n : Nat) :
    core.run (m + n) s = core.run n t := by
  induction m generalizing s with
  | zero =>
    cases h
    rw [Nat.zero_add]
  | succ m ih =>
    obtain ⟨u, hu, hrun⟩ := step_of_run_succ h
    rw [Nat.succ_add, run_succ (m + n) hu, ih hrun]

/-- The bank function of what `SELBANK n` writes is page `n`. -/
theorem fBank_selBank (n : BitVec 3) : fBank (n.setWidth 8 <<< 1) 0x0E = n ++ 0#8 := by
  revert n
  decide

/-- The output byte of `SELBANK n` has `n` in its bits 3:1. -/
theorem shiftLeft_selBank (n : BitVec 3) : n.setWidth 8 <<< 1 = 0#4 ++ n ++ 0#1 := by
  revert n
  decide

end Sys2Proof.Machine

/-! ### The statements about the encoding -/

namespace Sys2Proof.Proofs

open Sys2Proof.Machine Sys2Proof.Config Sys2Proof.Safety

/-- Settles O5: each row's cycle decodes to its operation, and a record holds the whole cycle. -/
theorem decodeOfEncode : Obligations.DecodeOfEncode :=
  fun i rest => ⟨decode_encode i, decodeBytes_encodeBytes i rest⟩

/-- Settles O2: one region of the decoder per clause, and in the device-select region the register number. -/
theorem decodeClassifiesInOrder : Obligations.DecodeClassifiesInOrder := by
  intro c
  refine ⟨fun hr hi => ?_, fun hr hi hs => ?_, fun hr hi hs => ?_, fun hr hi => ?_, fun hr hi hs => ?_,
    fun hr hi hs => ?_⟩
  · exact op_decode_deviceRead hr hi
  · rw [decode_fwRead hr hi hs, Instr.op]
  · rw [decode_strobeRead hr hi hs, Instr.op]
  · exact op_decode_deviceWrite hr hi
  · rw [decode_windowWrite hr hi hs, Instr.op]
  · rw [decode_strobeWrite hr hi hs, Instr.op]

/-- Settles O3: the table and the decoder look at the same five bits, and agree on them. -/
theorem decodeFollowsTheOperationTable : Obligations.DecodeFollowsTheOperationTable :=
  fun _ hr cw d => and_mask_iff hr cw d

/-- Settles O4: the rows that match a word are those of the operation it decodes to, which has one row. -/
theorem everyCycleWordMatchesOneRow : Obligations.EveryCycleWordMatchesOneRow := by
  intro cw
  have hrows : opTable.filter (fun row => row.covers cw) =
      opTable.filter fun row => row.op = (decode (BusCycle.ofWord cw 0)).op := by
    apply List.filter_congr
    intro r hr
    rw [OpRow.covers, Bool.eq_iff_iff, beq_iff_eq, and_mask_iff hr cw 0, decide_eq_true_iff, eq_comm]
  rw [hrows]
  exact List.length_eq_one_iff.1 (opTable_filter_op _)

/-- Settles O6: the fields of a cycle, region by region. -/
theorem encodeOfDecode : Obligations.EncodeOfDecode := encode_decode

/-- Settles O27: the table's number of a word is a record of it, so its cycle is the one that is placed. -/
theorem stepRunsPlacedWord : Obligations.StepRunsPlacedWord := by
  intro s cw
  refine ⟨decodeTableWord_word cw, fun hw => ?_⟩
  rw [wf_decode] at hw
  rw [State.withFetchWord, placeTableWord, cycleOfTableWord_word]
  exact stepRunsDecodedCycle _ _ s.arrivals rfl rfl hw

/-- Settles O28: under `ignore` every cycle is admitted, and serving it answers a next state. -/
theorem noCycleWordStops : Obligations.NoCycleWordStops := by
  intro s cw d rest hb hp ha
  have hw : Event.wf s.params (.cycle (BusCycle.ofWord cw d)) = true := by
    simp [Event.wf, Params.admitsHighBits, hp]
  obtain ⟨t, ht, -, -, harr⟩ := serve_next (.cycle (BusCycle.ofWord cw d)) (s.setArrivals rest)
  exact ⟨t, (step_admitted hb ha hw).trans ht, harr⟩

/-- Settles O48: `SETDDR B, 0x0E`, then `SETOR B, n << 1`. -/
theorem selectBank : Obligations.SelectBank := by
  intro s hi n rest hb hw ha
  rw [selBank, List.map_append, List.append_assoc] at ha
  rw [← fBank_selBank, ← shiftLeft_selBank]
  exact (run_add (run_setDdr hb hw ha) 2).trans (run_setOr (p := .b) hb hw rfl)

/-- Settles O49: on port A the write is all, on port B the latch follows. -/
theorem setDataDirectionAndOutput : Obligations.SetDataDirectionAndOutput := by
  intro s hi v rest hb hw
  refine ⟨run_setDdr hb hw, run_setOr hb hw, fun ha => ?_, fun ha => ?_⟩
  · rw [run_setDdr hb hw ha, ← fBank_eq_pageBase]
    rfl
  · rw [run_setOr hb hw ha, ← fBank_eq_pageBase]
    rfl

/-- Settles O1, by running the decoder on the five words. -/
theorem exampleWordsDecode : Obligations.ExampleWordsDecode := by
  unfold Obligations.ExampleWordsDecode
  decide

/-- Settles O8: the base of each line carries its flags and no address bit. -/
theorem traceLinesGiveTheirCycles : Obligations.TraceLinesGiveTheirCycles := by
  intro a d
  refine ⟨?_, lineEvent_wrDev a d, ?_, ?_, ?_, ?_⟩
  · exact lineCycle_eq (base := 0x4000) (by decide) a 0
  · exact lineCycle_eq (base := 0x5000) (by decide) a 0
  · exact lineCycle_eq (base := 0x1000) (by decide) a d
  · exact lineCycle_eq (base := 0x7000) (by decide) a 0
  · exact lineCycle_eq (base := 0x3000) (by decide) a d

end Sys2Proof.Proofs

/-! SUPPORT. Proofs of the statements about the device-select operations (family 40_device_select): the rules they
share, then the statements. -/

/-! ### The words of a device-select operation (30_encoding.md R84) -/

namespace Sys2Proof

/-- A cycle whose word has the mask and match of a device-select row is in the region, in the row's direction and at
the row's register. The match is the word of the row's cycle with every ignored bit 0. -/
theorem fields_of_deviceMatch {c : BusCycle} {rd : Bool} {reg : BitVec 2}
    (h : c.word &&& 0x5003 = (deviceCycle rd 0 reg false 0).word) :
    c.rd = rd ∧ c.io = false ∧ c.a.extractLsb' 0 2 = reg := by
  have hbit : ∀ k, (0x5003 : CycleWord).getLsbD k = true →
      c.word.getLsbD k = (deviceCycle rd 0 reg false 0).word.getLsbD k := by
    intro k hk
    rw [← h, BitVec.getLsbD_and, hk, Bool.and_true]
  have hreg : ∀ k < 2, c.a.getLsbD k = reg.getLsbD k := by
    intro k hk
    have hmask : ∀ j < 2, (0x5003 : CycleWord).getLsbD j = true := by decide
    have haddr := hbit k (hmask k hk)
    rw [BusCycle.word_bit, BusCycle.word_bit, if_pos (by omega), if_pos (by omega), deviceCycle, bit_append,
      if_pos hk] at haddr
    exact haddr
  have hrd := hbit 14 (by decide)
  have hio := hbit 12 (by decide)
  rw [BusCycle.word_bit, BusCycle.word_bit] at hrd hio
  refine ⟨hrd, hio, BitVec.eq_of_getLsbD_eq fun k hk => ?_⟩
  rw [reg_bit c.a hk, hreg k hk]

/-- A word with the mask and match of a device-select read decodes to the read of its register. -/
theorem decode_of_readMatch {cw : CycleWord} {reg : BitVec 2}
    (h : cw &&& 0x5003 = (deviceCycle true 0 reg false 0).word) (d : Byte) :
    ∃ hi stb, decode (BusCycle.ofWord cw d) = deviceRead hi reg stb := by
  rw [← BusCycle.word_ofWord cw d] at h
  obtain ⟨hrd, hio, hreg⟩ := fields_of_deviceMatch h
  exact ⟨_, _, by rw [decode_deviceRead hrd hio, decodeDeviceRead_eq, hreg]⟩

/-- A word with the mask and match of a device-select write decodes to the write of its register, with its data. -/
theorem decode_of_writeMatch {cw : CycleWord} {reg : BitVec 2}
    (h : cw &&& 0x5003 = (deviceCycle false 0 reg false 0).word) (d : Byte) :
    ∃ hi stb, decode (BusCycle.ofWord cw d) = deviceWrite hi reg stb d := by
  rw [← BusCycle.word_ofWord cw d] at h
  obtain ⟨hrd, hio, hreg⟩ := fields_of_deviceMatch h
  exact ⟨_, _, by rw [decode_deviceWrite hrd hio, decodeDeviceWrite_eq, hreg, BusCycle.ofWord_d]⟩

theorem rd_encode (i : Instr) : (encode i).rd = i.isRead := by cases i <;> rfl

/-- A cycle decodes to a read exactly when its `RD` flag says so. -/
theorem isRead_decode (c : BusCycle) : (decode c).isRead = c.rd := by rw [← rd_encode, encode_decode]

end Sys2Proof

/-! ### The four accesses of a port, whole -/

namespace Sys2Proof.Machine

/-- Two 0 bits above the control register (10_state.md R21). -/
theorem dataOfCtrl_eq_append (c : Ctrl) : dataOfCtrl c = 0#2 ++ c := BitVec.setWidth_eq_append (by decide)

theorem ctrlOfData_eq_extract (d : Byte) : ctrlOfData d = d.extractLsb' 0 6 :=
  BitVec.setWidth_eq_extractLsb' (by decide)

theorem readData_eq (p : Port) (s : State) :
    readData p s = { s with responses := s.responses ++ [s.regs.output p] } := rfl

theorem readControl_eq (p : Port) (s : State) :
    readControl p s = { s with responses := s.responses ++ [0#2 ++ s.regs.control p] } := by
  rw [readControl, dataOfCtrl_eq_append, State.respond]

theorem writeControl_eq (p : Port) (d : Byte) (s : State) :
    writeControl p d s = s.setRegs (s.regs.setControl p (d.extractLsb' 0 6)) := by
  rw [writeControl, ctrlOfData_eq_extract]

/-- A data write by `ORSEL` (10_state.md R22), with the recomputation of the latch that port B adds. -/
theorem writeData_eq (p : Port) (d : Byte) (s : State) :
    writeData p d s = if orsel (s.regs.control p) then s.setRegs ((s.regs.setOutput p d).settle p)
      else s.setRegs ((s.regs.setDataDir p d).settle p) := by
  obtain ⟨ho, hr⟩ | ⟨ho, hr⟩ := s.regs.storeData_eq p d <;> rw [writeData, hr, ho] <;> rfl

/-- An operation adds one response if it reads and none if it writes (70_reset_and_hazards.md R214). -/
theorem length_answer (i : Instr) (s : State) : (answer s i).length = if i.isRead then 1 else 0 := by
  cases hr : i.isRead with
  | true =>
    obtain ⟨v, hv⟩ := answer_of_isRead hr s
    rw [hv]
    rfl
  | false =>
    rw [(answer_of_isWrite hr s).1]
    rfl

end Sys2Proof.Machine

/-! ### The statements about the device-select operations -/

namespace Sys2Proof.Proofs

open Sys2Proof.Machine Sys2Proof.Config Sys2Proof.Safety

/-- Settles O9: a data read responds the output register, and looks at no other. -/
theorem readDataRespondsOutput : Obligations.ReadDataRespondsOutput := by
  refine ⟨fun hi stb s => ?_, fun hi stb s => ?_, fun cw d h => ?_, fun cw d h => ?_⟩
  · exact congrArg Host.Outcome.next (readData_eq .a s)
  · exact congrArg Host.Outcome.next (readData_eq .b s)
  · exact decode_of_readMatch (reg := 0) h d
  · exact decode_of_readMatch (reg := 2) h d

/-- Settles O10: a control register is widened by two 0 bits. -/
theorem readControlRespondsSixBits : Obligations.ReadControlRespondsSixBits := by
  refine ⟨fun hi stb s => ?_, fun hi stb s => ?_, fun cw d h => ?_, fun cw d h => ?_⟩
  · exact congrArg Host.Outcome.next (readControl_eq .a s)
  · exact congrArg Host.Outcome.next (readControl_eq .b s)
  · exact decode_of_readMatch (reg := 1) h d
  · exact decode_of_readMatch (reg := 3) h d

/-- Settles O11: the data write by `ORSEL`, to which port A adds nothing. -/
theorem writePortA : Obligations.WritePortA := by
  refine ⟨fun hi stb d s => ?_, fun cw d h => ?_⟩
  · exact congrArg Host.Outcome.next (writeData_eq .a d s)
  · exact decode_of_writeMatch (reg := 0) h d

/-- Settles O12: the data is cut to its six low bits, and the latch is left as it is. -/
theorem writeControlStoresSixBits : Obligations.WriteControlStoresSixBits := by
  refine ⟨fun hi stb d s => ?_, fun hi stb d s => ?_, fun cw d h => ?_, fun cw d h => ?_⟩
  · exact congrArg Host.Outcome.next (writeControl_eq .a d s)
  · exact congrArg Host.Outcome.next (writeControl_eq .b d s)
  · exact decode_of_writeMatch (reg := 1) h d
  · exact decode_of_writeMatch (reg := 3) h d

/-- Settles O13: the data write by `ORSEL`, to which port B adds the bank function of the registers it leaves. -/
theorem writePortBRecomputesBank : Obligations.WritePortBRecomputesBank := by
  refine ⟨fun hi stb d s => ?_, fun cw d h => ?_⟩
  · rw [← fBank_eq_pageBase, ← fBank_eq_pageBase]
    exact congrArg Host.Outcome.next (writeData_eq .b d s)
  · exact decode_of_writeMatch (reg := 2) h d

/-- Settles O29: an admitted cycle is served by executing what it decodes to, which is whole in one step. -/
theorem deviceSelectCompletesInItsCycle : Obligations.DeviceSelectCompletesInItsCycle := by
  intro s c rest hb ha hio hw
  have hadmitted : Event.wf s.params (.cycle c) = true := by rw [Event.wf, hio, Bool.false_or, hw]
  obtain ⟨t, ht⟩ := exec_next (decode c) (s.setArrivals rest)
  obtain ⟨-, -, harr, -⟩ := exec_frame ht
  refine ⟨t, ht, (step_admitted hb ha hadmitted).trans ht, harr, ?_, fun hr => ?_⟩
  · rw [exec_responses ht, List.length_append, length_answer, isRead_decode, State.setArrivals_responses]
  · rw [exec_regs ht, regsAfter_of_isRead ((isRead_decode c).trans hr), State.setArrivals_regs]

end Sys2Proof.Proofs

/-! SUPPORT. Proofs of the statements about the I/O-region operations (family 41_io_select): the rules they share,
then the statements. -/

/-! ### The cycles of the I/O regions (30_encoding.md R83, R84) -/

namespace Sys2Proof

/-- A word with the mask and match of an I/O row has the row's flags. The match is the word of the row's cycle with
every ignored bit 0. -/
theorem fields_of_ioMatch {cw : CycleWord} {rd stb : Bool} (h : cw &&& 0x7000 = (ioCycle rd stb 0 0).word)
    (d : Byte) :
    (BusCycle.ofWord cw d).rd = rd ∧ (BusCycle.ofWord cw d).io = true ∧ (BusCycle.ofWord cw d).stb = stb := by
  have hbit : ∀ k, (0x7000 : CycleWord).getLsbD k = true → cw.getLsbD k = (ioCycle rd stb 0 0).word.getLsbD k := by
    intro k hk
    rw [← h, BitVec.getLsbD_and, hk, Bool.and_true]
  have hrd := hbit 14 (by decide)
  have hio := hbit 12 (by decide)
  have hstb := hbit 13 (by decide)
  rw [BusCycle.word_bit] at hrd hio hstb
  exact ⟨hrd, hio, hstb⟩

/-- The four operations a cycle with `IO = 1` can be. -/
theorem decode_io_cases {c : BusCycle} (hio : c.io = true) :
    decode c = .rdFw (c.a.extractLsb' 8 4) (c.a.extractLsb' 0 8) ∨ decode c = .rdIostb c.a ∨
      decode c = .wrIosel c.a c.d ∨ decode c = .wrIostb c.a c.d := by
  cases hr : c.rd <;> cases hs : c.stb
  · exact .inr (.inr (.inl (decode_windowWrite hr hio hs)))
  · exact .inr (.inr (.inr (decode_strobeWrite hr hio hs)))
  · exact .inl (decode_fwRead hr hio hs)
  · exact .inr (.inl (decode_strobeRead hr hio hs))

end Sys2Proof

/-! ### What the I/O operations do -/

namespace Sys2Proof.Machine

open Config

theorem readFirmware_eq (off : Byte) (s : State) : readFirmware off s =
    { s with responses := s.responses ++ [fwRead s.params (off.setWidth 11 ||| s.regs.bankOffset).toNat] } := rfl

theorem State.respondUndefined_eq (s : State) :
    s.respondUndefined = { s with responses := s.responses ++ [draw 8 s.draws], draws := s.draws + 1 } := rfl

/-- The strobe read ignores its address (41_io_select.md R141). -/
theorem exec_rdIostb (a : Addr) (s : State) : exec (.rdIostb a) s = .next s.respondUndefined := rfl

/-- A write of the strobe region has no effect (41_io_select.md R143). -/
theorem exec_wrIostb (a : Addr) (d : Byte) (s : State) : exec (.wrIostb a d) s = .next s := rfl

/-- A cycle with `IO = 1` writes no register (41_io_select.md R145). -/
theorem regsAfter_decode_io {c : BusCycle} (hio : c.io = true) (r : Registers) : regsAfter (decode c) r = r := by
  obtain h | h | h | h := decode_io_cases hio <;> rw [h, regsAfter]

/-- The response of a cycle with `IO = 1` looks at no register but the bank latch (41_io_select.md R145). -/
theorem answer_decode_io {c : BusCycle} (hio : c.io = true) {s : State} {r : Registers}
    (hbank : r.bankOffset = s.regs.bankOffset) : answer (s.setRegs r) (decode c) = answer s (decode c) := by
  obtain h | h | h | h := decode_io_cases hio
  · simp only [h, answer, State.setRegs_regs, State.setRegs_params, hbank]
  · rw [h, answer, answer, State.setRegs_draws]
  · rw [h, answer, answer]
  · rw [h, answer, answer]

end Sys2Proof.Machine

/-! ### The statements about the I/O-region operations -/

namespace Sys2Proof.Proofs

open Sys2Proof.Machine Sys2Proof.Config Sys2Proof.Safety

/-- Settles O14: the window read responds the byte at an index that its width bounds. -/
theorem readFirmwareByte : Obligations.ReadFirmwareByte := by
  refine ⟨fun page off s => ?_, fun off s => bank_lt_fwSize s.params _, fun cw d h => ?_⟩
  · rw [exec_rdFw, readFirmware_eq]
  · obtain ⟨hrd, hio, hstb⟩ := fields_of_ioMatch (rd := true) (stb := false) h d
    have hoff : (cw.extractLsb' 0 12).extractLsb' 0 8 = cw.extractLsb' 0 8 :=
      BitVec.extractLsb'_extractLsb'_of_le (by decide)
    exact ⟨_, by rw [decode_fwRead hrd hio hstb, BusCycle.ofWord_a, hoff]⟩

/-- Settles O15: the strobe read responds the next draw, whatever that is. -/
theorem readStrobeRespondsDraw : Obligations.ReadStrobeRespondsDraw := by
  refine ⟨fun a s => ?_, fun cw d h => ?_⟩
  · rw [exec_rdIostb, State.respondUndefined_eq]
  · obtain ⟨hrd, hio, hstb⟩ := fields_of_ioMatch (rd := true) (stb := true) h d
    exact ⟨_, decode_strobeRead hrd hio hstb⟩

/-- Settles O16: neither write reaches the state, and both keep the data byte of their cycle. -/
theorem ioWritesHaveNoEffect : Obligations.IoWritesHaveNoEffect := by
  refine ⟨exec_wrIosel, exec_wrIostb, fun cw d h => ?_, fun cw d h => ?_⟩
  · obtain ⟨hrd, hio, hstb⟩ := fields_of_ioMatch (rd := false) (stb := false) h d
    exact ⟨_, decode_windowWrite hrd hio hstb⟩
  · obtain ⟨hrd, hio, hstb⟩ := fields_of_ioMatch (rd := false) (stb := true) h d
    exact ⟨_, decode_strobeWrite hrd hio hstb⟩

/-- Settles O19: none of the four operations writes a register, and they answer alike where the latch is the same,
so the other registers ride through unread. -/
theorem ioCyclesNeitherWriteNorReadThePorts : Obligations.IoCyclesNeitherWriteNorReadThePorts := by
  intro c s r hio hbank
  obtain ⟨t, ht⟩ := exec_next (decode c) s
  have hother := exec_setRegs ht (answer_decode_io hio hbank)
  rw [regsAfter_decode_io hio] at hother
  exact ⟨t, ht, by rw [exec_regs ht, regsAfter_decode_io hio], hother⟩

end Sys2Proof.Proofs

/-! SUPPORT. Proofs of the statements about the external agent's port (family 42_external_port): the rules they
share, then the statements. -/

/-! ### The masked write of an output register (42_external_port.md R160, R161) -/

namespace Sys2Proof.Machine

theorem maskedWrite_maskedWrite (old m v : Byte) : maskedWrite (maskedWrite old m v) m v = maskedWrite old m v := by
  apply BitVec.eq_of_getLsbD_eq
  intro k _
  simp only [maskedWrite_bit]
  split <;> rfl

/-- A mask without a bank bit is without bits 3:1, which are all that the bank function sees. -/
theorem fBank_maskedWrite {m : Byte} (hm : m &&& 0x0E = 0) (ob db v : Byte) :
    fBank (maskedWrite ob m v) db = fBank ob db := by
  have hbit : ∀ j, (0x0E : Byte).getLsbD j = true → m.getLsbD j = false := by
    intro j hj
    have h : (m &&& 0x0E).getLsbD j = false := by rw [hm]; exact BitVec.getLsbD_zero
    rwa [BitVec.getLsbD_and, hj, Bool.and_true] at h
  have hbank : ∀ k < 11, 8 ≤ k → (0x0E : Byte).getLsbD (k - 7) = true := by decide
  apply BitVec.eq_of_getLsbD_eq
  intro k hk
  rw [fBank_bit, fBank_bit, maskedWrite_bit]
  by_cases h8 : 8 ≤ k
  · simp [hbit _ (hbank k hk h8)]
  · simp [h8]

/-- A mask inside a set of bits that has no bank bit has none either. -/
theorem and_bankBits_eq_zero {m allowed : Byte} (hm : m &&& ~~~allowed = 0) (ha : allowed &&& 0x0E = 0) :
    m &&& 0x0E = 0 := by
  have hinside : m = m &&& allowed := by
    apply BitVec.eq_of_getLsbD_eq
    intro k hk
    have h : (m &&& ~~~allowed).getLsbD k = false := by rw [hm]; exact BitVec.getLsbD_zero
    rw [BitVec.getLsbD_and, BitVec.getLsbD_not, decide_eq_true hk, Bool.true_and] at h
    rw [BitVec.getLsbD_and]
    cases hbit : allowed.getLsbD k with
    | true => rw [Bool.and_true]
    | false => simpa [hbit] using h
  calc m &&& 0x0E = m &&& allowed &&& 0x0E := congrArg (· &&& 0x0E) hinside
    _ = m &&& (allowed &&& 0x0E) := BitVec.and_assoc ..
    _ = 0 := by rw [ha]; exact BitVec.and_zero

theorem Registers.extWrite_a (m v : Byte) (r : Registers) :
    r.extWrite .a m v = { r with outputA := maskedWrite r.outputA m v } := rfl

theorem Registers.extWrite_b (m v : Byte) (r : Registers) :
    r.extWrite .b m v = { r with
      outputB := maskedWrite r.outputB m v
      bankOffset := Safety.pageBase (maskedWrite r.outputB m v) r.dataDirB } := by
  rw [← Safety.fBank_eq_pageBase]
  rfl

@[simp] theorem Registers.output_extWrite (p : Port) (m v : Byte) (r : Registers) :
    (r.extWrite p m v).output p = maskedWrite (r.output p) m v := by cases p <;> rfl

theorem Registers.extWrite_extWrite (p : Port) (m v : Byte) (r : Registers) :
    (r.extWrite p m v).extWrite p m v = r.extWrite p m v := by
  cases p with
  | a => simp only [extWrite_a, maskedWrite_maskedWrite]
  | b => simp only [extWrite_b, maskedWrite_maskedWrite]

/-- On port B the latch is recomputed, so it must hold the bank function already (log entry 16). -/
theorem Registers.bankOffset_extWrite {p : Port} {m : Byte} {r : Registers} (hr : Safety.Latched r)
    (hm : p = .b → m &&& 0x0E = 0) (v : Byte) : (r.extWrite p m v).bankOffset = r.bankOffset := by
  cases p with
  | a => rfl
  | b => exact (fBank_maskedWrite (hm rfl) r.outputB r.dataDirB v).trans hr.symm

/-! ### The service of a mutation -/

theorem serve_ext (port : Port) (m v : Byte) (s : State) :
    serve (.ext port m v) s = .next (s.setRegs (s.regs.extWrite port m v)) := by cases port <;> rfl

theorem admitsMask_iff (p : Config.Params) (port : Port) (m : Byte) :
    p.admitsMask port m = true ↔ m &&& ~~~extMask p port = 0 := by cases port <;> exact beq_iff_eq

section

variable {s : State} {port : Port} {m v : Byte} {rest : List Event}

/-- An admitted mutation that is served, in the loop or before it. -/
theorem step_ext (hr : s.boot = .looping ∨ s.mutationFirst = true) (ha : s.arrivals = .ext port m v :: rest)
    (hm : s.params.admitsMask port m = true) :
    step s = .next ((s.takeTurn.setArrivals rest).setRegs (s.regs.extWrite port m v)) := by
  rw [step_serves hr ha hm, serve_ext]
  rfl

theorem step_ext_looping (hb : s.boot = .looping) (ha : s.arrivals = .ext port m v :: rest)
    (hm : s.params.admitsMask port m = true) :
    step s = .next ((s.setArrivals rest).setRegs (s.regs.extWrite port m v)) := by
  rw [step_ext (.inl hb) ha hm, State.takeTurn_looping hb]

/-- A mutation that the loop has served was an admitted one. -/
theorem step_ext_inv {t : State} (hb : s.boot = .looping) (ha : s.arrivals = .ext port m v :: rest)
    (h : step s = .next t) :
    s.params.admitsMask port m = true ∧ t = (s.setArrivals rest).setRegs (s.regs.extWrite port m v) := by
  rw [step_event hb ha, ← serveNext_event ha] at h
  obtain ⟨hm, hs⟩ := serveNext_cases ha h
  rw [serve_ext] at hs
  cases hs
  exact ⟨hm, rfl⟩

/-- An admitted mutation and then a read of the register it wrote. -/
theorem run_ext_readData {c : BusCycle} (hb : s.boot = .looping) (hc : Event.wf s.params (.cycle c) = true)
    (ha : s.arrivals = .ext port m v :: .cycle c :: rest) (hm : s.params.admitsMask port m = true)
    (hread : ∀ u, exec (decode c) u = .next (readData port u)) :
    ∃ t, core.run 2 s = .next t ∧ t.responses = s.responses ++ [maskedWrite (s.regs.output port) m v] := by
  have hwritten := step_ext_looping hb ha hm
  have hanswered := (step_admitted (s := (s.setArrivals (.cycle c :: rest)).setRegs (s.regs.extWrite port m v))
    hb rfl hc).trans (hread _)
  refine ⟨_, (run_succ 1 hwritten).trans (run_succ 0 hanswered), ?_⟩
  simp [readData]

/-! ### The mutations and the boot's schedule (log entry 6) -/

theorem State.takeTurn_booting (hb : s.boot ≠ .looping) : s.takeTurn = s.setBootFirst s.bootFirst.tail := by
  rw [State.takeTurn, scheduleAfter_booting hb]

/-- A mutation that has arrived comes first where the schedule does not put the boot step first. -/
theorem mutationFirst_ext (ha : s.arrivals = .ext port m v :: rest) (hf : s.bootFirst.head? ≠ some true) :
    s.mutationFirst = true :=
  (mutationFirst_iff s).2 ⟨_, _, ha, rfl, hf⟩

theorem step_bootFirst (hb : s.boot ≠ .looping) (hf : s.bootFirst.head? = some true) :
    step s = .next { s with boot := s.boot.next, bootFirst := s.bootFirst.tail } := by
  have hm : s.mutationFirst = false := by
    rw [Bool.eq_false_iff]
    intro h
    obtain ⟨-, -, -, -, hne⟩ := (mutationFirst_iff s).1 h
    exact hne hf
  rw [step_booting hb hm, State.takeTurn_booting hb]
  rfl

theorem step_ext_booting (hb : s.boot ≠ .looping) (ha : s.arrivals = .ext port m v :: rest)
    (hf : s.bootFirst.head? ≠ some true) (hm : s.params.admitsMask port m = true) :
    step s = .next { s with
      arrivals := rest, bootFirst := s.bootFirst.tail, regs := s.regs.extWrite port m v } := by
  rw [step_ext (.inr (mutationFirst_ext ha hf)) ha hm, State.takeTurn_booting hb]
  rfl

theorem step_ext_booting_refused (hb : s.boot ≠ .looping) (ha : s.arrivals = .ext port m v :: rest)
    (hf : s.bootFirst.head? ≠ some true) (hm : s.params.admitsMask port m = false) :
    step s = .refused (.extMask port) := by
  have hmask : m &&& ~~~extMask s.params port ≠ 0 := fun h => by simp [(admitsMask_iff _ _ _).2 h] at hm
  rw [step_early hb (mutationFirst_ext ha hf), serveNext_event (s := s.takeTurn) ha, State.takeTurn_params,
    gate_extMask hmask]

end

/-- Admitted mutations at the head of the arrivals are all served before the boot moves on, if the schedule gives
each its turn. -/
theorem run_mutations_booting {s : State} {mutations rest : List Event} {schedule : List Bool}
    (hb : s.boot ≠ .looping) (hw : mutations.all (fun e => isMutation e && Event.wf s.params e) = true)
    (ha : s.arrivals = mutations ++ rest) (hf : s.bootFirst = mutations.map (fun _ => false) ++ schedule) :
    ∃ t : State, core.run mutations.length s = .next t ∧ t.boot = s.boot ∧ t.arrivals = rest ∧ t.bootFirst = schedule := by
  induction mutations generalizing s with
  | nil => exact ⟨s, rfl, rfl, ha, hf⟩
  | cons e es ih =>
    rw [List.all_cons, Bool.and_eq_true, Bool.and_eq_true] at hw
    obtain ⟨⟨hmut, he⟩, hes⟩ := hw
    cases e with
    | ext port m v =>
      have hturn : s.bootFirst.head? ≠ some true := by simp [hf]
      have htail : s.bootFirst.tail = es.map (fun _ => false) ++ schedule := by rw [hf]; rfl
      have hstep := step_ext_booting hb ha hturn he
      obtain ⟨t, hrun, hboot, harr, hfirst⟩ := ih (s := { s with
        arrivals := es ++ rest, bootFirst := s.bootFirst.tail, regs := s.regs.extWrite port m v }) hb hes rfl htail
      exact ⟨t, (run_succ es.length hstep).trans hrun, hboot, harr, hfirst⟩
    | cycle c => cases hmut
    | reset b => cases hmut
    | wrPbRace hi stb d outcome => cases hmut

end Sys2Proof.Machine

/-! ### The statements about the external agent's port -/

namespace Sys2Proof.Proofs

open Sys2Proof.Machine Sys2Proof.Config Sys2Proof.Safety

/-- Settles O35: the new register is the masked write, which is known bit by bit. -/
theorem externalWriteA : Obligations.ExternalWriteA := by
  intro s m v rest hb ha hm
  refine ⟨maskedWrite s.regs.outputA m v, maskedWrite_bit _ _ _, ?_⟩
  rw [step_ext_looping hb ha ((admitsMask_iff _ _ _).2 hm), Registers.extWrite_a]
  rfl

/-- Settles O36: as on port A, with the bank function of the new register in its page-number form. -/
theorem externalWriteB : Obligations.ExternalWriteB := by
  intro s m v rest hb ha hm
  refine ⟨maskedWrite s.regs.outputB m v, maskedWrite_bit _ _ _, ?_⟩
  rw [step_ext_looping hb ha ((admitsMask_iff _ _ _).2 hm), Registers.extWrite_b]
  rfl

/-- Settles O37: the masked write is idempotent, and so is the recomputation of the latch. -/
theorem externalWriteRepeats : Obligations.ExternalWriteRepeats := by
  intro s t port m v rest hb ha h
  obtain ⟨hm, rfl⟩ := step_ext_inv hb ha h
  refine (step_ext_looping
    (s := (s.setArrivals (.ext port m v :: rest)).setRegs (s.regs.extWrite port m v)) hb rfl hm).trans ?_
  rw [State.setRegs_regs, Registers.extWrite_extWrite]
  rfl

/-- Settles O38: a mask inside `EXT_MASK_B` has no bank bit, so the recomputed latch is the one that was there. -/
theorem externalCannotMoveBank : Obligations.ExternalCannotMoveBank := by
  intro s t port m v rest hb ha hmask hl h
  obtain ⟨hm, rfl⟩ := step_ext_inv hb ha h
  refine Registers.bankOffset_extWrite hl ?_ v
  rintro rfl
  exact and_bankBits_eq_zero ((admitsMask_iff _ _ _).1 hm) hmask

/-- Settles O46, on each port. -/
theorem externalWriteSeenByNextRead : Obligations.ExternalWriteSeenByNextRead := by
  intro s c hi stb m v rest hb hc
  refine ⟨fun ha hm hd => ?_, fun ha hm hd => ?_⟩
  · exact run_ext_readData (port := .a) hb hc ha ((admitsMask_iff _ _ _).2 hm) (fun u => by rw [hd]; rfl)
  · exact run_ext_readData (port := .b) hb hc ha ((admitsMask_iff _ _ _).2 hm) (fun u => by rw [hd]; rfl)

/-- Settles O59, by the head of the schedule and the mask. -/
theorem externalWriteWhileBooting : Obligations.ExternalWriteWhileBooting := by
  intro s port m v rest hb ha
  refine ⟨step_bootFirst hb, fun hf hm => ?_, step_ext_booting_refused hb ha⟩
  refine ⟨maskedWrite (s.regs.output port) m v, maskedWrite_bit _ _ _, ?_⟩
  rw [step_ext_booting hb ha hf hm]
  cases port with
  | a => rw [Registers.extWrite_a]; rfl
  | b => rw [Registers.extWrite_b]; rfl

/-- Settles O60: the mutations take their turns, and then the schedule's next entry is the boot's. -/
theorem mutationsBetweenBootSteps : Obligations.MutationsBetweenBootSteps := by
  intro s mutations rest later hb hw ha hf
  obtain ⟨t, hrun, hboot, harr, hfirst⟩ := run_mutations_booting hb hw ha hf
  refine ⟨t, hrun, hboot, harr, ?_⟩
  refine (step_bootFirst (s := t) (hboot ▸ hb) (by rw [hfirst]; rfl)).trans ?_
  rw [hfirst]
  rfl

/-- Settles O47: with `ORSEL` clear the data write reaches `DataDirA`, and port A recomputes nothing. -/
theorem observationPortShowsDataDirA : Obligations.ObservationPortShowsDataDirA := by
  intro hi stb d s ho
  have hwrite : writeData .a d s = s.setRegs (s.regs.setDataDir .a d) := by
    rw [writeData_eq, show orsel (s.regs.control .a) = false from ho]
    rfl
  exact ⟨_, congrArg Host.Outcome.next hwrite, rfl⟩

end Sys2Proof.Proofs

/-! SUPPORT. Proofs of the statements about exceptions, stops and resets (family 60_exceptions): the rules they
share, then the statements. -/

/-! ### A host reset (70_reset_and_hazards.md R201) -/

namespace Sys2Proof.Machine

open Config

/-- Under `zero` and `keep` a reset leaves registers that a reset does not change (60_exceptions.md R186). -/
theorem Registers.hostReset_hostReset {policy : RegResetPolicy} (hp : policy ≠ .any) (m n : Nat) (r : Registers) :
    (r.hostReset policy m).hostReset policy n = r.hostReset policy m := by
  cases policy with
  | zero => rfl
  | keep => rfl
  | any => exact absurd rfl hp

theorem resetDraws_eq_zero {policy : RegResetPolicy} (hp : policy ≠ .any) : resetDraws policy = 0 := by
  cases policy with
  | zero => rfl
  | keep => rfl
  | any => exact absurd rfl hp

/-- A reset, whole: the registers by the policy, the draws it takes, one signal. -/
theorem resetAssert_eq (s : State) : resetAssert s = { s with
    regs := s.regs.hostReset s.params.regResetPolicy s.draws
    draws := s.draws + resetDraws s.params.regResetPolicy
    mouseResets := s.mouseResets + 1 } := rfl

/-- A reset of registers that a reset does not change, under a policy that takes no draws. -/
theorem resetAssert_of_fixed {s : State} (hp : s.params.regResetPolicy ≠ .any)
    (hr : s.regs.hostReset s.params.regResetPolicy s.draws = s.regs) :
    resetAssert s = { s with mouseResets := s.mouseResets + 1 } := by
  rw [resetAssert_eq, hr, resetDraws_eq_zero hp]
  rfl

/-- The loop with a reset to serve: every parameter admits it. -/
theorem step_resetAssert {s : State} {rest : List Event} (hb : s.boot = .looping)
    (ha : s.arrivals = .reset true :: rest) : step s = .next (resetAssert (s.setArrivals rest)) :=
  step_admitted hb ha rfl

end Sys2Proof.Machine

/-! ### Admitted arrivals (60_exceptions.md R180, R191) -/

namespace Sys2Proof.Machine

/-- An admitted event that is served, in the loop or before it, answers a next state. -/
theorem step_next_of_serves {s : State} {e : Event} {rest : List Event}
    (hr : s.boot = .looping ∨ s.mutationFirst = true) (ha : s.arrivals = e :: rest) (hw : e.wf s.params = true) :
    ∃ t, step s = .next t := by
  obtain ⟨t, ht, -⟩ := serve_next e (s.takeTurn.setArrivals rest)
  exact ⟨t, (step_serves hr ha hw).trans ht⟩

end Sys2Proof.Machine

namespace Sys2Proof.Safety

open Sys2Proof.Machine

/-- Admission looks at the parameters and the arrivals alone. -/
theorem admitted_congr {s t : State} (hp : t.params = s.params) (ha : t.arrivals = s.arrivals) :
    Admitted t ↔ Admitted s := by
  rw [Admitted, Admitted, hp, ha]

theorem admitted_cons {s : State} {e : Event} {rest : List Event} (ha : s.arrivals = e :: rest) :
    Admitted s ↔ e.wf s.params = true ∧ Admitted (s.setArrivals rest) := by
  rw [Admitted, ha, List.all_cons, Bool.and_eq_true]
  rfl

/-- Progress: by what the step has to do, which is to serve an event, to idle, or to boot on. -/
theorem Admitted.step_next {s : State} (h : Admitted s) : ∃ t, step s = .next t := by
  by_cases hb : s.boot = .looping
  · cases ha : s.arrivals with
    | nil => exact ⟨s, step_idle_eq hb ha⟩
    | cons e rest => exact step_next_of_serves (.inl hb) ha ((admitted_cons ha).1 h).1
  · cases hm : s.mutationFirst with
    | false => exact ⟨_, step_booting hb hm⟩
    | true =>
      obtain ⟨e, rest, ha, -⟩ := (mutationFirst_iff s).1 hm
      exact step_next_of_serves (.inr hm) ha ((admitted_cons ha).1 h).1

/-- Preservation: a step keeps the parameters, and of the arrivals it takes off at most the first. -/
theorem Admitted.of_step {s t : State} (h : Admitted s) (hs : step s = .next t) : Admitted t := by
  obtain ⟨-, hp, ha⟩ | ⟨e, rest, -, hcons, -, hp, ha⟩ := step_regs hs
  · exact (admitted_congr hp ha).2 h
  · exact (admitted_congr (s := s.setArrivals rest) hp ha).2 ((admitted_cons hcons).1 h).2

/-- A machine never stops whose state has a property that gives each step a next state with the property. -/
theorem neverStops_of_invariant {P : State → Prop} (hP : ∀ s, P s → ∃ t, step s = .next t ∧ P t) {s : State}
    (hs : P s) : NeverStops s := by
  intro k
  induction k generalizing s with
  | zero => exact ⟨s, rfl⟩
  | succ k ih =>
    obtain ⟨t, ht, hPt⟩ := hP s hs
    rw [run_succ k ht]
    exact ih hPt

end Sys2Proof.Safety

/-! ### The statements about exceptions, stops and resets -/

namespace Sys2Proof.Proofs

open Sys2Proof.Machine Sys2Proof.Config Sys2Proof.Safety

/-- Settles O57: admission is an invariant that gives each step a next state. -/
theorem admittedRunNeverStops : Obligations.AdmittedRunNeverStops := by
  intro s h
  refine neverStops_of_invariant (fun u hu => ?_) h
  obtain ⟨t, ht⟩ := hu.step_next
  exact ⟨t, ht, hu.of_step ht⟩

/-- Settles O41: the second reset finds registers that the first has left, which it does not change. -/
theorem resetIsIdempotent : Obligations.ResetIsIdempotent := by
  intro s t rest hb hp ha h
  rw [step_resetAssert hb ha] at h
  cases h
  refine (step_resetAssert (s := resetAssert (s.setArrivals (.reset true :: rest))) hb rfl).trans ?_
  exact congrArg Host.Outcome.next (resetAssert_of_fixed hp (Registers.hostReset_hostReset hp _ _ _))

end Sys2Proof.Proofs

/-! SUPPORT. Proofs of the statements about resets, the boot and whole runs (family 70_reset_and_hazards): the rules
they share, then the statements. -/

/-! ### One step of a run, and what it adds to the responses (70_reset_and_hazards.md R212, R214) -/

namespace Sys2Proof.Machine

open Sys2Proof.Safety

/-- Serving an event adds one response for a read cycle and none for any other event. -/
theorem length_responses_of_serve {e : Event} {s t : State} (h : serve e s = .next t) :
    t.responses.length = s.responses.length + if isReadCycle e then 1 else 0 := by
  cases e with
  | cycle c => rw [exec_responses h, List.length_append, length_answer, isRead_decode, isReadCycle]
  | reset asserted => cases asserted <;> cases h <;> rfl
  | ext port m v =>
    rw [serve_ext] at h
    cases h
    rfl
  | wrPbRace hi stb d outcome => cases h; rfl

/-- The loop serves an admitted event, and goes on with the rest of the arrivals. -/
theorem step_serves_head {s : State} {e : Event} {rest : List Event} (hb : s.boot = .looping)
    (ha : s.arrivals = e :: rest) (hw : e.wf s.params = true) :
    ∃ t : State, step s = .next t ∧ t.params = s.params ∧ t.boot = .looping ∧ t.arrivals = rest ∧
      t.responses.length = s.responses.length + if isReadCycle e then 1 else 0 := by
  obtain ⟨t, ht, hparams, hboot, harr⟩ := serve_next e (s.setArrivals rest)
  exact ⟨t, (step_admitted hb ha hw).trans ht, hparams, hboot.trans hb, harr,
    length_responses_of_serve (s := s.setArrivals rest) ht⟩

/-- A run of as many steps as there are arrivals serves them all. -/
theorem run_serves_arrivals {s : State} {events : List Event} (hb : s.boot = .looping) (hw : Admitted s)
    (ha : s.arrivals = events) :
    ∃ t : State, core.run events.length s = .next t ∧ t.arrivals = [] ∧
      t.responses.length = s.responses.length + events.countP isReadCycle := by
  induction events generalizing s with
  | nil => exact ⟨s, rfl, ha, rfl⟩
  | cons e rest ih =>
    obtain ⟨he, hrest⟩ := (admitted_cons ha).1 hw
    obtain ⟨u, hu, hparams, hboot, harr, hone⟩ := step_serves_head hb ha he
    have hadmitted : Admitted u := (admitted_congr (s := s.setArrivals rest) hparams harr).2 hrest
    obtain ⟨t, ht, hdone, hmore⟩ := ih hboot hadmitted harr
    refine ⟨t, (run_succ rest.length hu).trans ht, hdone, ?_⟩
    rw [hmore, hone, List.countP_cons]
    omega

end Sys2Proof.Machine

/-! ### A reset inside a write of port B (70_reset_and_hazards.md R204) -/

namespace Sys2Proof.Machine

open Config

/-- Sub-step W of R204: a data write of port B, by `ORSEL`. -/
theorem Registers.storeData_b (d : Byte) (r : Registers) : r.storeData .b d = { r with
    outputB := if r.controlB.getLsbD 2 then d else r.outputB
    dataDirB := if r.controlB.getLsbD 2 then r.dataDirB else d } := by
  obtain ⟨ho, hr⟩ | ⟨ho, hr⟩ := r.storeData_eq .b d
  · rw [hr, show r.controlB.getLsbD 2 = true from ho]
    rfl
  · rw [hr, show r.controlB.getLsbD 2 = false from ho]
    rfl

/-- Under `zero` a decoder that computes from the registers after the reset stores 0 as well. -/
theorem raceBank_powerOn (w : Registers) (outcome : RaceOutcome) :
    raceBank w Registers.powerOn outcome = 0 ∨
      raceBank w Registers.powerOn outcome = Safety.pageBase w.outputB w.dataDirB := by
  cases outcome with
  | resetLast => exact .inl rfl
  | decoderStale => exact .inr (Safety.fBank_eq_pageBase _ _)
  | decoderFresh => exact .inl fBank_zero

/-- The loop with an admitted race to serve, whole: the registers of the race, and of a reset the draws and the
signal. -/
theorem step_race {s : State} {hi : HighBits} {stb : Bool} {d : Byte} {outcome : RaceOutcome} {rest : List Event}
    (hb : s.boot = .looping) (ha : s.arrivals = .wrPbRace hi stb d outcome :: rest)
    (hw : s.params.admitsHighBits hi = true) : step s = .next { s with
      arrivals := rest
      regs := s.regs.afterRace s.params.regResetPolicy s.draws d outcome
      draws := s.draws + resetDraws s.params.regResetPolicy
      mouseResets := s.mouseResets + 1 } :=
  step_admitted hb ha hw

end Sys2Proof.Machine

/-! ### The firmware window after a reset (70_reset_and_hazards.md R205) -/

namespace Sys2Proof.Machine

/-- In page 0 the firmware index is the offset. -/
theorem fwIndex_zero_toNat (off : Byte) : (fwIndex off 0).toNat = off.toNat := by
  change (off.setWidth 11 ||| 0#11).toNat = off.toNat
  rw [BitVec.or_zero, BitVec.toNat_setWidth_of_le (by decide)]

/-- The loop with a firmware read to serve: every parameter admits it. -/
theorem step_rdFw {s : State} {c : BusCycle} {page : BitVec 4} {off : Byte} {rest : List Event}
    (hb : s.boot = .looping) (ha : s.arrivals = .cycle c :: rest) (hd : decode c = .rdFw page off) :
    step s = .next (readFirmware off (s.setArrivals rest)) := by
  have hw : Event.wf s.params (.cycle c) = true := by rw [← wf_decode, hd, Instr.wf]
  exact (step_admitted hb ha hw).trans (congrArg (exec · _) hd)

end Sys2Proof.Machine

/-! ### The boot (70_reset_and_hazards.md R207) -/

namespace Sys2Proof.Machine

/-- No mutation comes first where none is next, or where the schedule puts the boot step first. -/
theorem mutationFirst_eq_false {s : State}
    (h : (∀ port m v rest, s.arrivals ≠ .ext port m v :: rest) ∨ s.bootFirst.head? = some true) :
    s.mutationFirst = false := by
  rw [Bool.eq_false_iff]
  intro hm
  obtain ⟨e, rest, ha, hmut, hf⟩ := (mutationFirst_iff s).1 hm
  cases e with
  | ext port m v => exact h.elim (fun hnone => hnone port m v rest ha) hf
  | cycle c => cases hmut
  | reset asserted => cases hmut
  | wrPbRace hi stb d outcome => cases hmut

/-- A boot step, whole, from a phase before the loop. -/
theorem step_phase {s : State} {b : BootPhase} (hs : s.boot = b) (hb : b ≠ .looping)
    (hm : s.mutationFirst = false) :
    step s = .next { s with boot := b.next, bootFirst := s.bootFirst.tail } := by
  subst hs
  rw [step_booting hb hm, State.takeTurn_booting hb]
  rfl

end Sys2Proof.Machine

/-! ### The statements about resets, the boot and whole runs -/

namespace Sys2Proof.Proofs

open Sys2Proof.Machine Sys2Proof.Config Sys2Proof.Safety

/-- Settles O58, by induction on the arrivals: each step serves one. -/
theorem runServesEveryEventOnce : Obligations.RunServesEveryEventOnce := by
  intro s hb hw
  rw [← List.countP_eq_length_filter]
  exact run_serves_arrivals hb hw rfl

/-- Settles O39: the registers of a reset are 0 in the latch under every policy, and known whole under each. -/
theorem resetAssertByPolicy : Obligations.ResetAssertByPolicy := by
  intro s rest hb ha
  refine ⟨_, _, step_resetAssert hb ha, Registers.bankOffset_hostReset _ _ _, ?_, ?_, ?_⟩
  all_goals
    intro hp
    rw [State.setArrivals_params, hp]
    exact ⟨rfl, rfl⟩

/-- Settles O42: the race's registers are a reset's after sub-step W, with the latch by the outcome. -/
theorem resetInsideWritePortB : Obligations.ResetInsideWritePortB := by
  intro s hi stb d outcome rest ob db hb ha hw hob hdb
  have hstore : s.regs.storeData .b d = { s.regs with outputB := ob, dataDirB := db } := by
    rw [hob, hdb, Registers.storeData_b]
  refine ⟨_, step_race hb ha hw, rfl, ?_⟩
  simp only [Registers.afterRace, hstore]
  refine ⟨?_, ?_, ?_, fun hp => ?_, fun hp => ?_, fun hp => ?_, fun hp => ?_⟩
  · rintro rfl
    rfl
  · rintro rfl
    exact fBank_eq_pageBase _ _
  · rintro rfl
    exact fBank_eq_pageBase _ _
  · rw [hp]
    exact ⟨rfl, raceBank_powerOn _ outcome⟩
  · rw [hp]
    rfl
  · rw [hp]
    exact ⟨rfl, rfl⟩
  · rw [resetDraws_eq_zero hp, Nat.add_zero]

/-- Settles O43: the reset leaves 0 in the latch, and the read that follows is served with it. -/
theorem windowShowsPageZeroAfterReset : Obligations.WindowShowsPageZeroAfterReset := by
  intro s c page off rest hb hd ha
  have hreset := step_resetAssert hb ha
  have hread := step_rdFw (s := resetAssert (s.setArrivals (.cycle c :: rest))) hb rfl hd
  have hbank : (resetAssert (s.setArrivals (.cycle c :: rest))).regs.bankOffset = 0 :=
    Registers.bankOffset_hostReset _ _ _
  refine ⟨_, (run_succ 1 hreset).trans (run_succ 0 hread), ?_⟩
  rw [readFirmware, State.respond_responses, State.setArrivals_regs, hbank, fwIndex_zero_toNat]
  rfl

/-- Settles O44: both writers of port B settle it, which recomputes the latch. -/
theorem portBWritesRestoreTheLatch : Obligations.PortBWritesRestoreTheLatch := by
  refine ⟨fun hi stb d s => ⟨_, rfl, Registers.bankOffset_settle_b _⟩, fun s t m v rest hb ha h => ?_⟩
  obtain ⟨-, rfl⟩ := step_ext_inv hb ha h
  exact Registers.bankOffset_settle_b _

/-- Settles O33, phase by phase: no mutation comes first, so each step is the boot's. -/
theorem bootOrder : Obligations.BootOrder := by
  intro s h
  have hm := mutationFirst_eq_false h
  exact ⟨fun hs => step_phase hs (by decide) hm, fun hs => step_phase hs (by decide) hm,
    fun hs => step_phase hs (by decide) hm⟩

/-- Settles O40: every parameter admits the event, and serving it does nothing. -/
theorem resetDeassertChangesNothing : Obligations.ResetDeassertChangesNothing := by
  intro s rest hb ha
  exact step_admitted hb ha rfl

end Sys2Proof.Proofs

/-! SUPPORT. Proofs of the statements about the rejections of the byte record and the idle loop (family other): the
rules they share, then the statements. -/

/-! ### Which byte strings are no cycle record (log entry 9) -/

namespace Sys2Proof

/-- Bit 15 of the word is the top bit of its second byte. -/
theorem getLsbD_seven_iff (b : Byte) : b.getLsbD 7 = true ↔ 0x80 ≤ b.toNat := by
  have hmsb : b.getLsbD 7 = decide (0x80 ≤ b.toNat) :=
    (BitVec.msb_eq_getLsbD_last b).symm.trans (BitVec.msb_eq_decide b)
  rw [hmsb, decide_eq_true_iff]

/-- The decoder rejects what the record rejects, under the same name: every cycle decodes. -/
theorem decodeBytes_eq_error_iff (bytes : List Byte) (e : DecodeError) :
    decodeBytes bytes = .error e ↔ cycleOfBytes bytes = .error e := by
  rw [decodeBytes]
  cases cycleOfBytes bytes with
  | ok r => exact iff_of_false nofun nofun
  | error e' => simp only [Except.error.injEq]

/-- Three bytes are there, so bit 15 alone decides. -/
theorem cycleOfBytes_eq_notACycleWord_iff (lo hi d : Byte) (rest : List Byte) :
    cycleOfBytes (lo :: hi :: d :: rest) = .error .notACycleWord ↔ hi.getLsbD 7 = true := by
  rw [cycleOfBytes]
  split
  next h => exact iff_of_true rfl h
  next h => exact iff_of_false nofun h

theorem cycleOfBytes_eq_tooShort_iff (bytes : List Byte) :
    cycleOfBytes bytes = .error .tooShort ↔ bytes.length < 3 := by
  match bytes with
  | [] | [_] | [_, _] => simp [cycleOfBytes]
  | lo :: hi :: d :: rest =>
    have hlong : ¬ (lo :: hi :: d :: rest).length < 3 := by simp
    rw [cycleOfBytes, iff_false_right hlong]
    split
    · exact nofun
    · exact nofun

end Sys2Proof

/-! ### The statements -/

namespace Sys2Proof.Proofs

open Sys2Proof.Machine

/-- Settles O7: the decoder rejects what the record rejects, which looks at the length and at bit 15 only. -/
theorem byteRecordRejections : Obligations.ByteRecordRejections :=
  ⟨fun bytes => (decodeBytes_eq_error_iff bytes _).trans (cycleOfBytes_eq_tooShort_iff bytes),
   fun lo hi d rest => (decodeBytes_eq_error_iff _ _).trans
     ((cycleOfBytes_eq_notACycleWord_iff lo hi d rest).trans (getLsbD_seven_iff hi))⟩

/-- Settles O32, by the model's law of the idle loop. -/
theorem idleLoopChangesNothing : Obligations.IdleLoopChangesNothing :=
  fun _ => step_idle_eq

end Sys2Proof.Proofs
